-- ==== Sys2Proof/Word.lean ====
section
/-! DEFINITION. The word types of the 4808, the index types of its fixed collections, and the plainest operations on tables
and counts. -/

namespace Sys2Proof

/-- One byte of host memory, and one character's eight data bits (R3, R5). -/
abbrev Byte := BitVec 8

/-- A 16-bit field of a record or register (section 11). -/
abbrev Half := BitVec 16

/-- A register of the register window: 32 bits (section 11.5). -/
abbrev Word := BitVec 32

/-- A host address: 64 bits (00_scope, Host memory). -/
abbrev Addr := BitVec 64

/-- A line and its Line Engine, L0 to L7. -/
abbrev LineId := Fin 8

/-- One of the eight transaction slots of a line (R38). -/
abbrev SlotId := Fin 8

/-- A submission ring 0 to 15 (R122). -/
abbrev RingId := Fin 16

/-- A priority class 0 to 3 (R122). -/
abbrev ClassId := Fin 4

/-- A completion ring C0 to C3 (R136). -/
abbrev CRingId := Fin 4

/-- A station entry's index 0 to 127 (R18). -/
abbrev EntryId := Fin 128

/-- A count that rises by 1 and saturates at `top` (R19, R88). -/
def satSucc (top n : Nat) : Nat := if n < top then n + 1 else top

/-- The table `v` with place `i` replaced by `x`. -/
def vput {α : Type} {n : Nat} (v : Vector α n) (i : Fin n) (x : α) : Vector α n := v.set i.val x i.isLt

/-- Place `i` of the table `v`. -/
def vget {α : Type} {n : Nat} (v : Vector α n) (i : Fin n) : α := v[i.val]'i.isLt

/-- The table with `f` applied to every place. -/
def vmap {α β : Type} {n : Nat} (f : α → β) (v : Vector α n) : Vector β n := ⟨(v.toArray.toList.map f).toArray, by simp⟩

/-- The first index below `n` that satisfies `p`, lowest first. -/
def firstFin {n : Nat} (p : Fin n → Bool) : Option (Fin n) := (List.finRange n).find? p

/-- The indices below `n` that satisfy `p`, in rising order. -/
def allFin {n : Nat} (p : Fin n → Bool) : List (Fin n) := (List.finRange n).filter p

end Sys2Proof
end

