-- ==== Sys2Proof/Config.lean ====
section
/-! DEFINITION. What one implementation of the 4808 fixes and the manual leaves open (free values: opaque, without a body), and
the fixed limits that the manual's rules state. -/

namespace Sys2Proof

/-- The revision code of the part in DEVID (R171, section 11.5): the manual names the field and gives no value.
DESIGN CHOICE: a free value (notes/assumptions/1.md). -/
opaque Config.revisionCode : Byte

/-- Which of several claims that compete inside one step is taken first, for the `k`-th such competition: the manual says that
two claims are separate and either may be taken first (R41, R113, R140, R141).  DESIGN CHOICE: a free value
(notes/assumptions/2.md). -/
opaque Config.raceWinner : Nat → Nat

/-- Whether byte `k` of a buffer write that a device fault or a reset cuts off has reached host memory, for the `n`-th write so cut
off: the manual says each byte is either old or new (R96, R178).  DESIGN CHOICE: a free value (notes/assumptions/3.md). -/
opaque Config.byteLanded : Nat → Nat → Bool

/-- Start quiet: 16 character times (R65). -/
def Config.startQuietChars : Nat := 16

/-- Start limit: 200 ms, in microseconds (R65). -/
def Config.startLimitUs : Nat := 200000

/-- Settle limit: 256 character times (R83). -/
def Config.settleLimitChars : Nat := 256

/-- Stuck limit: 64 character times of continuous space (R84). -/
def Config.stuckLimitChars : Nat := 64

/-- The number of consecutive CONFLICT outcomes that faults a line (R77). -/
def Config.conflictLimit : Nat := 3

/-- The most slots of a line that one submission ring may hold (R39, R40). -/
def Config.slotsPerRing : Nat := 4

/-- The largest failure count of a station entry (R19, R24). -/
def Config.failureCountMax : Nat := 15

end Sys2Proof
end

