-- ==== Sys2Proof/Syntax.lean ====
section
/-! DEFINITION. The commands and events the 4808 takes: one constructor of `Instr` for each row of spec/opcode_table.json, with the
operands the row's rules give it. -/

namespace Sys2Proof

/-- How a read of host memory ended: with the bytes the host bus returned, lowest address first, or with a bus error (R91, R128). -/
inductive BusRead where
  | ok (bytes : List Byte)
  | error
  deriving DecidableEq, Repr

/-- How a write of host memory ended.  An error carries, for each byte of the range in ascending order, whether it reached host
memory before the error: after an error each byte holds its old value or the new one (R97, R114, R170). -/
inductive BusWrite where
  | ok
  | error (landed : List Bool)
  deriving DecidableEq, Repr

/-- The two levels of RXD (R2, R3). -/
inductive Level where
  | mark
  | space
  deriving DecidableEq, Repr

/-- A character as the receiver sampled it, bit by bit: eight data bits, the mark bit, the parity bit and the stop bits (R3).  A field
that the line's format does not have (parity bit with parity none, second stop bit with one stop bit, everything but the data on a
clocked line) is not used. -/
structure RawChar where
  data : Byte
  mark : Bool
  parity : Bool
  stop1 : Bool
  stop2 : Bool
  deriving DecidableEq, Repr

/-- The eight registers of the register window (section 11.5). -/
inductive Reg where
  | devid | devctl | devstat | bootLo | bootHi | post | release | intcause
  deriving DecidableEq, Repr

/-- The fields of a LINE_CONFIG record as bytes 9 to 27 carry them (R180).  `mask` holds mask bits 0 to 11. -/
structure LineFields where
  mode : Byte
  rate : Byte
  parity : Byte
  stopBits : Byte
  lead : Byte
  mask : BitVec 12
  respTimeout : Half
  gapLimit : Byte
  settle : Byte
  suspectAfter : Byte
  offlineAfter : Byte
  busyHoldOff : Half
  busyLimit : Byte
  noticeRing : Byte
  probeInterval : Half
  deriving DecidableEq, Repr

/-- The seventeen admin commands with their parameters, as the admin record carries them (section 11.2, R153). -/
inductive AdminCmd where
  | ringCreate (ring sizeCode line cls cring : Byte) (base : Addr)
  | ringPause (ring : Byte)
  | ringResume (ring cls : Byte)
  | ringDelete (ring mode : Byte)
  | cringCreate (ring sizeCode n : Byte) (intEnable : Bool) (t : Half) (base : Addr)
  | cringPolicy (ring n : Byte) (intEnable : Bool) (t : Half)
  | cringDelete (ring : Byte)
  | poolCreate (sizeCode : Byte) (base : Addr)
  | poolDelete
  | lineConfig (line : Byte) (f : LineFields)
  | lineStart (line : Byte)
  | lineStop (line mode : Byte)
  | stationAttach (line addr : Byte) (period : Half)
  | stationDetach (line addr : Byte)
  | stationScan (line addr : Byte) (period : Half)
  | stationQuery (index : Byte) (clear : Bool) (buf : Addr)
  | lineQuery (line part : Byte) (clear : Bool) (buf : Addr)
  deriving DecidableEq, Repr

/-- The commands and events of the 4808, one constructor per row of spec/opcode_table.json, in the table's order.  An admin row is the
end of ring 0's record read with a record of that kind whose zero fields are zero; `adminRecordRead` is the same end with any bytes. -/
inductive Instr where
  | powerOnReset
  | hardReset
  | enable (value : Bool)
  | intEnable (value : Bool)
  | post (ring : Byte) (tail : Half)
  | release (ring : Byte) (head : Half)
  | intcause (value : Word)
  | registerWrite (reg : Reg) (value : Word)
  | bootstrapRead (r : BusRead)
  | recordRead (line : LineId) (r : BusRead)
  | ringCreate (tag : Half) (ring sizeCode line cls cring : Byte) (base : Addr)
  | ringPause (tag : Half) (ring : Byte)
  | ringResume (tag : Half) (ring cls : Byte)
  | ringDelete (tag : Half) (ring mode : Byte)
  | cringCreate (tag : Half) (ring sizeCode n : Byte) (ie : Bool) (t : Half) (base : Addr)
  | cringPolicy (tag : Half) (ring n : Byte) (ie : Bool) (t : Half)
  | cringDelete (tag : Half) (ring : Byte)
  | poolCreate (tag : Half) (sizeCode : Byte) (base : Addr)
  | poolDelete (tag : Half)
  | lineConfig (tag : Half) (line : Byte) (fields : LineFields)
  | lineStart (tag : Half) (line : Byte)
  | lineStop (tag : Half) (line mode : Byte)
  | stationAttach (tag : Half) (line addr : Byte) (period : Half)
  | stationDetach (tag : Half) (line addr : Byte)
  | stationScan (tag : Half) (line addr : Byte) (period : Half)
  | stationQuery (tag : Half) (index : Byte) (clear : Bool) (buf : Addr)
  | lineQuery (tag : Half) (line part : Byte) (clear : Bool) (buf : Addr)
  | payloadRead (line : LineId) (slot : SlotId) (r : BusRead)
  | dataWrite (line : LineId) (slot : SlotId) (w : BusWrite)
  | poolEntryRead (line : LineId) (r : BusRead)
  | scanDataWrite (line : LineId) (w : BusWrite)
  | reportWrite (w : BusWrite)
  | completionWrite (cring : CRingId) (w : BusWrite)
  | leadTime (line : LineId)
  | characterSent (line : LineId)
  | characterReceived (line : LineId) (c : RawChar)
  | rxdTransition (line : LineId) (level : Level)
  | responseTimeout (line : LineId)
  | gapLimit (line : LineId)
  | settleTime (line : LineId)
  | settleLimit (line : LineId)
  | startQuiet (line : LineId)
  | startLimit (line : LineId)
  | stuckLimit (line : LineId)
  | clockedStartWait (line : LineId)
  | holdOffEnd (entry : EntryId)
  | nextDue (entry : EntryId)
  | coalescingTimer (cring : CRingId)
  | falseStart (line : LineId)
  | adminRecordRead (r : BusRead)
  deriving DecidableEq, Repr

end Sys2Proof
end

