-- ==== Sys2Proof/WellFormed.lean ====
section
/-! DEFINITION. When a command or event carries operands of the shape its rule gives it: the number of bytes a read returns and the
number of bytes a failed write accounts for.  Parameters of admin commands and register writes have no such condition: the device
judges them itself (R125, R142, R153). -/

namespace Sys2Proof

/-- A read of `n` bytes that ended without error returned `n` bytes. -/
def BusRead.hasLength (n : Nat) : BusRead → Bool
  | .ok bs => bs.length == n
  | .error => true

/-- A read of at most `n` bytes that ended without error returned at most `n` bytes. -/
def BusRead.hasLengthUpTo (n : Nat) : BusRead → Bool
  | .ok bs => bs.length ≤ n
  | .error => true

/-- A failed write of at most `n` bytes accounts for at most `n` bytes. -/
def BusWrite.coversUpTo (n : Nat) : BusWrite → Bool
  | .ok => true
  | .error landed => landed.length ≤ n

/-- The operands of a command or event have the shape its rule gives them: a submission, admin or bootstrap record is 32 bytes, a pool
entry 8 bytes, a payload or response at most 64 bytes, a report 32 bytes, and bytes 0 to 14 of a completion record are the ones a
failed write may have left (R42, R91, R114, R138, R170, R173). -/
def Instr.wellFormed : Instr → Bool
  | .bootstrapRead r => r.hasLength 32
  | .recordRead _ r => r.hasLength 32
  | .adminRecordRead r => r.hasLength 32
  | .poolEntryRead _ r => r.hasLength 8
  | .payloadRead _ _ r => r.hasLengthUpTo 64
  | .dataWrite _ _ w => w.coversUpTo 64
  | .scanDataWrite _ w => w.coversUpTo 64
  | .reportWrite w => w.coversUpTo 32
  | .completionWrite _ w => w.coversUpTo 15
  | .powerOnReset => true
  | .hardReset => true
  | .enable _ => true
  | .intEnable _ => true
  | .post _ _ => true
  | .release _ _ => true
  | .intcause _ => true
  | .registerWrite _ _ => true
  | .ringCreate _ _ _ _ _ _ _ => true
  | .ringPause _ _ => true
  | .ringResume _ _ _ => true
  | .ringDelete _ _ _ => true
  | .cringCreate _ _ _ _ _ _ _ => true
  | .cringPolicy _ _ _ _ _ => true
  | .cringDelete _ _ => true
  | .poolCreate _ _ _ => true
  | .poolDelete _ => true
  | .lineConfig _ _ _ => true
  | .lineStart _ _ => true
  | .lineStop _ _ _ => true
  | .stationAttach _ _ _ _ => true
  | .stationDetach _ _ _ => true
  | .stationScan _ _ _ _ => true
  | .stationQuery _ _ _ _ => true
  | .lineQuery _ _ _ _ _ => true
  | .leadTime _ => true
  | .characterSent _ => true
  | .characterReceived _ _ => true
  | .rxdTransition _ _ => true
  | .responseTimeout _ => true
  | .gapLimit _ => true
  | .settleTime _ => true
  | .settleLimit _ => true
  | .startQuiet _ => true
  | .startLimit _ => true
  | .stuckLimit _ => true
  | .clockedStartWait _ => true
  | .holdOffEnd _ => true
  | .nextDue _ => true
  | .coalescingTimer _ => true
  | .falseStart _ => true

end Sys2Proof
end

