-- ==== Sys2Proof/Decode.lean ====
section
/-! DEFINITION. The layouts of the records the device reads from host memory (section 11.2, R179, R180): the little-endian field
readers and writers, the decoding of submission, admin, bootstrap and pool records, total on any bytes, their encoders, and
`decodeTableWord`. -/

namespace Sys2Proof

/-! ## Little-endian fields (section 11, opening) -/

/-- Byte `k` of a record. -/
def byteAt (bs : List Byte) (k : Nat) : Byte := bs.getD k 0

/-- The two-byte field at offset `k`, least significant byte first. -/
def halfAt (bs : List Byte) (k : Nat) : Half := byteAt bs (k + 1) ++ byteAt bs k

/-- The eight-byte field at offset `k`, least significant byte first. -/
def addrAt (bs : List Byte) (k : Nat) : Addr :=
  byteAt bs (k + 7) ++ byteAt bs (k + 6) ++ byteAt bs (k + 5) ++ byteAt bs (k + 4)
    ++ byteAt bs (k + 3) ++ byteAt bs (k + 2) ++ byteAt bs (k + 1) ++ byteAt bs k

/-- The bytes of a number, `n` of them, least significant first. -/
def leBytes : Nat → Nat → List Byte
  | 0, _ => []
  | n + 1, v => BitVec.ofNat 8 v :: leBytes n (v / 256)

/-- The two bytes of a 16-bit field, least significant first. -/
def halfBytes (h : Half) : List Byte := [h.extractLsb' 0 8, h.extractLsb' 8 8]

/-- The eight bytes of a 64-bit field, least significant first. -/
def addrBytes (a : Addr) : List Byte :=
  [a.extractLsb' 0 8, a.extractLsb' 8 8, a.extractLsb' 16 8, a.extractLsb' 24 8,
   a.extractLsb' 32 8, a.extractLsb' 40 8, a.extractLsb' 48 8, a.extractLsb' 56 8]

/-- Bytes `lo` to `hi − 1` of the record are all zero (R179). -/
def zeroBytes (bs : List Byte) (lo hi : Nat) : Bool :=
  (List.range (hi - lo)).all fun k => byteAt bs (lo + k) == 0

/-- Bits 1 to 7 of byte `k` are zero (R179): the byte carries one flag in bit 0. -/
def flagByteOk (bs : List Byte) (k : Nat) : Bool := (byteAt bs k).extractLsb' 1 7 == 0

/-- The flag in bit 0 of byte `k`. -/
def flagAt (bs : List Byte) (k : Nat) : Bool := (byteAt bs k).getLsbD 0

/-- The byte that carries one flag in bit 0 and zero bits above it. -/
def flagByte (b : Bool) : Byte := if b then 1 else 0

/-! ## The submission record (section 11.2, R89) -/

/-- The fields of a submission record of rings 1 to 15. -/
structure SubRec where
  tag : Half
  kind : Byte
  flags : Byte
  addr : Byte
  retry : Byte
  outLen : Byte
  inLimit : Byte
  paramCount : Byte
  /-- every field shown as zero is zero -/
  zerosOk : Bool
  params : List Byte
  buf : Addr
  deriving DecidableEq, Repr

/-- Reads a submission record's fields from its 32 bytes. -/
def decodeSub (bs : List Byte) : SubRec where
  tag := halfAt bs 0
  kind := byteAt bs 2
  flags := byteAt bs 3
  addr := byteAt bs 4
  retry := byteAt bs 5
  outLen := byteAt bs 6
  inLimit := byteAt bs 7
  paramCount := byteAt bs 8
  zerosOk := zeroBytes bs 9 16 && (byteAt bs 3).extractLsb' 3 5 == 0
  params := (List.range 8).map fun k => byteAt bs (16 + k)
  buf := addrAt bs 24

/-- The 32 bytes of a submission record with the given fields and zero in every zero byte. -/
def encodeSub (r : SubRec) : List Byte :=
  halfBytes r.tag ++ [r.kind, r.flags, r.addr, r.retry, r.outLen, r.inLimit, r.paramCount]
    ++ List.replicate 7 0 ++ (List.range 8).map (fun k => byteAt r.params k) ++ addrBytes r.buf

/-- The FENCE flag of a submission record (section 11.2, flags bit 0). -/
def SubRec.fence (r : SubRec) : Bool := r.flags.getLsbD 0

/-- The FORCE flag (flags bit 1). -/
def SubRec.force (r : SubRec) : Bool := r.flags.getLsbD 1

/-- The SYNC flag (flags bit 2). -/
def SubRec.sync (r : SubRec) : Bool := r.flags.getLsbD 2

/-- The kind code is FETCH (section 11.6). -/
def SubRec.isFetch (r : SubRec) : Bool := r.kind == 1

/-- The kind code is STORE. -/
def SubRec.isStore (r : SubRec) : Bool := r.kind == 2

/-- The kind code is POLL. -/
def SubRec.isPoll (r : SubRec) : Bool := r.kind == 3

/-- The kind code is BROADCAST. -/
def SubRec.isBroadcast (r : SubRec) : Bool := r.kind == 4

/-- The form of a taken record is right: the six conditions of R43, with the lengths of R89. -/
def SubRec.formOk (r : SubRec) : Bool :=
  r.zerosOk
  && (r.isFetch || r.isStore || r.isPoll || r.isBroadcast)
  && (if r.isBroadcast then r.addr == 0 else decide (1 ≤ r.addr.toNat ∧ r.addr.toNat ≤ 126))
  && decide (r.retry.toNat ≤ 7 ∧ r.paramCount.toNat ≤ 8 ∧ r.outLen.toNat ≤ 64)
  && (if r.isFetch then r.outLen == 0 && decide (1 ≤ r.inLimit.toNat ∧ r.inLimit.toNat ≤ 64)
      else if r.isPoll then
        r.paramCount == 0 && r.outLen == 0 && decide (1 ≤ r.inLimit.toNat ∧ r.inLimit.toNat ≤ 64)
      else r.inLimit == 0
        && decide (1 ≤ r.paramCount.toNat + r.outLen.toNat ∧ r.paramCount.toNat + r.outLen.toNat ≤ 64))
  && !(r.isBroadcast && (r.force || r.sync))

/-! ## The admin record (section 11.2, R153, R180) -/

/-- The kind code of an admin command (section 11.6). -/
def AdminCmd.code : AdminCmd → Byte
  | .ringCreate .. => 0x10
  | .ringPause .. => 0x11
  | .ringResume .. => 0x12
  | .ringDelete .. => 0x13
  | .cringCreate .. => 0x14
  | .cringPolicy .. => 0x15
  | .cringDelete .. => 0x16
  | .poolCreate .. => 0x17
  | .poolDelete => 0x18
  | .lineConfig .. => 0x19
  | .lineStart .. => 0x1A
  | .lineStop .. => 0x1B
  | .stationAttach .. => 0x1C
  | .stationDetach .. => 0x1D
  | .stationScan .. => 0x1E
  | .stationQuery .. => 0x1F
  | .lineQuery .. => 0x20

/-- The fields of a LINE_CONFIG record at their offsets (R180). -/
def lineFieldsAt (bs : List Byte) : LineFields where
  mode := byteAt bs 9
  rate := byteAt bs 10
  parity := byteAt bs 11
  stopBits := byteAt bs 12
  lead := byteAt bs 13
  mask := (halfAt bs 14).extractLsb' 0 12
  respTimeout := halfAt bs 16
  gapLimit := byteAt bs 18
  settle := byteAt bs 19
  suspectAfter := byteAt bs 20
  offlineAfter := byteAt bs 21
  busyHoldOff := halfAt bs 22
  busyLimit := byteAt bs 24
  noticeRing := byteAt bs 25
  probeInterval := halfAt bs 26

/-- Bytes 9 to 31 of a LINE_CONFIG record (R180). -/
def lineFieldBytes (f : LineFields) : List Byte :=
  [f.mode, f.rate, f.parity, f.stopBits, f.lead] ++ halfBytes (f.mask.setWidth 16)
    ++ halfBytes f.respTimeout ++ [f.gapLimit, f.settle, f.suspectAfter, f.offlineAfter]
    ++ halfBytes f.busyHoldOff ++ [f.busyLimit, f.noticeRing] ++ halfBytes f.probeInterval ++ List.replicate 4 0

/-- Reads the parameters of an admin record of the kind its byte 2 names, or answers none where a zero field of that kind is not zero or
the kind is no admin kind: the BAD_RECORD test of R153. -/
def decodeAdmin (bs : List Byte) : Option AdminCmd :=
  if !zeroBytes bs 3 8 then none
  else match (byteAt bs 2).toNat with
  | 0x10 =>
    if zeroBytes bs 13 16 && zeroBytes bs 24 32 then
      some (.ringCreate (byteAt bs 8) (byteAt bs 9) (byteAt bs 10) (byteAt bs 11) (byteAt bs 12) (addrAt bs 16))
    else none
  | 0x11 => if zeroBytes bs 9 32 then some (.ringPause (byteAt bs 8)) else none
  | 0x12 => if zeroBytes bs 10 32 then some (.ringResume (byteAt bs 8) (byteAt bs 9)) else none
  | 0x13 => if zeroBytes bs 10 32 then some (.ringDelete (byteAt bs 8) (byteAt bs 9)) else none
  | 0x14 =>
    if flagByteOk bs 11 && zeroBytes bs 14 16 && zeroBytes bs 24 32 then
      some (.cringCreate (byteAt bs 8) (byteAt bs 9) (byteAt bs 10) (flagAt bs 11) (halfAt bs 12) (addrAt bs 16))
    else none
  | 0x15 =>
    if zeroBytes bs 9 10 && flagByteOk bs 11 && zeroBytes bs 14 32 then
      some (.cringPolicy (byteAt bs 8) (byteAt bs 10) (flagAt bs 11) (halfAt bs 12))
    else none
  | 0x16 => if zeroBytes bs 9 32 then some (.cringDelete (byteAt bs 8)) else none
  | 0x17 =>
    if zeroBytes bs 8 9 && zeroBytes bs 10 16 && zeroBytes bs 24 32 then
      some (.poolCreate (byteAt bs 9) (addrAt bs 16))
    else none
  | 0x18 => if zeroBytes bs 8 32 then some .poolDelete else none
  | 0x19 =>
    if (byteAt bs 15).extractLsb' 4 4 == 0 && zeroBytes bs 28 32 then
      some (.lineConfig (byteAt bs 8) (lineFieldsAt bs))
    else none
  | 0x1A => if zeroBytes bs 9 32 then some (.lineStart (byteAt bs 8)) else none
  | 0x1B => if zeroBytes bs 10 32 then some (.lineStop (byteAt bs 8) (byteAt bs 9)) else none
  | 0x1C => if zeroBytes bs 12 32 then some (.stationAttach (byteAt bs 8) (byteAt bs 9) (halfAt bs 10)) else none
  | 0x1D => if zeroBytes bs 10 32 then some (.stationDetach (byteAt bs 8) (byteAt bs 9)) else none
  | 0x1E => if zeroBytes bs 12 32 then some (.stationScan (byteAt bs 8) (byteAt bs 9) (halfAt bs 10)) else none
  | 0x1F =>
    if flagByteOk bs 9 && zeroBytes bs 10 16 && zeroBytes bs 24 32 then
      some (.stationQuery (byteAt bs 8) (flagAt bs 9) (addrAt bs 16))
    else none
  | 0x20 =>
    if flagByteOk bs 9 && zeroBytes bs 11 16 && zeroBytes bs 24 32 then
      some (.lineQuery (byteAt bs 8) (byteAt bs 10) (flagAt bs 9) (addrAt bs 16))
    else none
  | _ => none

/-- Bytes 8 to 31 of the admin record of a command, zero in every zero byte. -/
def AdminCmd.paramBytes : AdminCmd → List Byte
  | .ringCreate ring sizeCode line cls cring base =>
    [ring, sizeCode, line, cls, cring] ++ List.replicate 3 0 ++ addrBytes base ++ List.replicate 8 0
  | .ringPause ring => ring :: List.replicate 23 0
  | .ringResume ring cls => [ring, cls] ++ List.replicate 22 0
  | .ringDelete ring mode => [ring, mode] ++ List.replicate 22 0
  | .cringCreate ring sizeCode n ie t base =>
    [ring, sizeCode, n, flagByte ie] ++ halfBytes t ++ List.replicate 2 0 ++ addrBytes base ++ List.replicate 8 0
  | .cringPolicy ring n ie t => [ring, 0, n, flagByte ie] ++ halfBytes t ++ List.replicate 18 0
  | .cringDelete ring => ring :: List.replicate 23 0
  | .poolCreate sizeCode base => [0, sizeCode] ++ List.replicate 6 0 ++ addrBytes base ++ List.replicate 8 0
  | .poolDelete => List.replicate 24 0
  | .lineConfig line f => line :: lineFieldBytes f
  | .lineStart line => line :: List.replicate 23 0
  | .lineStop line mode => [line, mode] ++ List.replicate 22 0
  | .stationAttach line addr period => [line, addr] ++ halfBytes period ++ List.replicate 20 0
  | .stationDetach line addr => [line, addr] ++ List.replicate 22 0
  | .stationScan line addr period => [line, addr] ++ halfBytes period ++ List.replicate 20 0
  | .stationQuery index clear buf =>
    [index, flagByte clear] ++ List.replicate 6 0 ++ addrBytes buf ++ List.replicate 8 0
  | .lineQuery line part clear buf =>
    [line, flagByte clear, part] ++ List.replicate 5 0 ++ addrBytes buf ++ List.replicate 8 0

/-- The 32 bytes of an admin record: tag, kind, five zero bytes and the parameters (section 11.2). -/
def encodeAdmin (tag : Half) (c : AdminCmd) : List Byte :=
  halfBytes tag ++ [c.code] ++ List.replicate 5 0 ++ c.paramBytes

/-! ## The bootstrap record (section 11.2, R173) -/

/-- The fields of the bootstrap record. -/
structure BootRec where
  ring0Base : Addr
  ring0Size : Byte
  c0Size : Byte
  threshold : Byte
  intEnable : Bool
  time : Half
  zerosOk : Bool
  c0Base : Addr
  deriving DecidableEq, Repr

/-- Reads the bootstrap record from its 32 bytes. -/
def decodeBoot (bs : List Byte) : BootRec where
  ring0Base := addrAt bs 0
  ring0Size := byteAt bs 8
  c0Size := byteAt bs 9
  threshold := byteAt bs 10
  intEnable := flagAt bs 11
  time := halfAt bs 12
  zerosOk := flagByteOk bs 11 && zeroBytes bs 14 16 && zeroBytes bs 24 32
  c0Base := addrAt bs 16

/-- The 32 bytes of a bootstrap record with zero in every zero byte. -/
def encodeBoot (r : BootRec) : List Byte :=
  addrBytes r.ring0Base ++ [r.ring0Size, r.c0Size, r.threshold, flagByte r.intEnable] ++ halfBytes r.time
    ++ List.replicate 2 0 ++ addrBytes r.c0Base ++ List.replicate 8 0

/-- The last byte of `count` entries of `width` bytes from `base` lies at or below 2^64 − 1 (R123, R137, R162, R173). -/
def fitsBelowTop (base : Addr) (width count : Nat) : Bool := base.toNat + width * count ≤ 2 ^ 64

/-- A ring's place in host memory is right: the base is a multiple of `width`, the size code lies in its range, and the last byte lies
within the address space (R123, R137, R162). -/
def ringGeometryOk (base : Addr) (width lo hi : Nat) (sizeCode : Byte) : Bool :=
  base.toNat % width == 0 && decide (lo ≤ sizeCode.toNat ∧ sizeCode.toNat ≤ hi)
    && fitsBelowTop base width (2 ^ sizeCode.toNat)

/-- A bootstrap record is valid (R173 step 3). -/
def BootRec.valid (r : BootRec) : Bool :=
  r.zerosOk && ringGeometryOk r.ring0Base 32 2 12 r.ring0Size && ringGeometryOk r.c0Base 16 3 13 r.c0Size
    && decide (1 ≤ r.threshold.toNat)

/-! ## The opcode table's words -/

/-- The command a table word spells.  No row of spec/opcode_table.json gives bits, so no word spells one
(notes/assumptions/4.md). -/
def decodeTableWord (_nbits _w : Nat) : Option Instr := none

end Sys2Proof
end

