-- ==== Sys2Proof/Machine/State.lean ====
section
/-! DEFINITION. The state of the 4808 as plain data: the named values of the manual, the contexts of rings, completion rings, the pool,
the Admin Processor, the eight Line Engines and the station table, the whole State, the reasons a step can stop, and the state after
power-on reset. -/

namespace Sys2Proof.Machine

/-! ## Named values (section 11.6) -/

/-- Device states (R171). -/
inductive DeviceState where
  | off | loading | running | disabling | faulted
  deriving DecidableEq, Repr

/-- Reset causes (R171). -/
inductive ResetCause where
  | power | hard | disable | faultClear
  deriving DecidableEq, Repr

/-- Device fault codes (R171, R176). -/
inductive FaultCode where
  | none | bootRead | badBoot | ringRead | poolRead | compWrite
  deriving DecidableEq, Repr

/-- Values of the last POST error field (R125). -/
inductive PostError where
  | none | notRunning | noRing | badIndex
  deriving DecidableEq, Repr

/-- Causes of a failed attempt (R17, R82). -/
inductive Cause where
  | timeout | check | parity | framing | truncated | protocol | toggle | conflict
  deriving DecidableEq, Repr

/-- The detail of a completion (R103). -/
inductive Detail where
  | none
  | cause (c : Cause)
  | synced
  deriving DecidableEq, Repr

/-- Statuses of transaction and admin completions (section 11.6). -/
inductive Status where
  | ok | refused | overlength | hostWriteError | hostReadError | stationBusy | noResponse | lineError | stationOffline | noStation
  | detached | badRecord | aborted | lineFault | badParam | wrongState | noRoom | notFound | inUse
  deriving DecidableEq, Repr

/-- Response kinds (R11). -/
inductive RespKind where
  | done | data | empty | busy | refused
  deriving DecidableEq, Repr

/-- Request kinds on the line (R9). -/
inductive ReqKind where
  | fetch | store | poll
  deriving DecidableEq, Repr

/-- States of a station entry in use (R19). -/
inductive StationState where
  | new | online | suspect | offline | detaching
  deriving DecidableEq, Repr

/-- Run states of a line (R63). -/
inductive RunState where
  | stopped | starting | running | stopping | faulted
  deriving DecidableEq, Repr

/-- Exchange phases of a line in RUNNING and STOPPING (R63). -/
inductive Phase where
  | idle | lead | sending | awaiting | receiving | settle
  deriving DecidableEq, Repr

/-- Fault causes of a line (R71). -/
inductive LineFault where
  | notQuiet | stuck | conflict
  deriving DecidableEq, Repr

/-- States of a non-FREE slot (R38). -/
inductive SlotState where
  | loading | waiting | ready | deferred | active | storing | finishing
  deriving DecidableEq, Repr

/-- States of a submission ring whose context exists, and DRAINING (R122, R124). -/
inductive RingState where
  | active | paused | draining
  deriving DecidableEq, Repr

/-- Line modes (R86). -/
inductive Mode where
  | async | clocked
  deriving DecidableEq, Repr

/-- Parity settings (R86). -/
inductive Parity where
  | none | even | odd
  deriving DecidableEq, Repr

/-- Scanner states (R106). -/
inductive ScannerState where
  | idle | holding | polling | delivering
  deriving DecidableEq, Repr

/-- Phases of the Admin Processor (R152). -/
inductive AdminPhase where
  | idle | reading | waiting | reporting | completing
  deriving DecidableEq, Repr

/-- Kinds of completion records (R143). -/
inductive CompKind where
  | txn | admin | scanData | stationNotice | lineNotice
  deriving DecidableEq, Repr

/-! ## Completion rings (R136, R138) -/

/-- Who writes a completion record (R138). -/
inductive Writer where
  | slot (line : LineId) (slot : SlotId)
  | admin
  | scanner (line : LineId)
  | notice (line : LineId)
  deriving DecidableEq, Repr

/-- A completion record before its layout (section 11.3).  `tail` is bytes 8 to 14 as a number: detail, result value and zeros, or the low
56 bits of a buffer address. -/
structure CompRecord where
  kind : CompKind
  tag : Half
  state : Option StationState
  status : Status
  source : Nat
  attempts : Nat
  addr : Byte
  respLen : Nat
  busy : Nat
  detail : Byte
  result : Half
  buffer : BitVec 56
  deriving DecidableEq, Repr

/-- A completion write in progress: the writer, the place, the record and the 16 bytes with the pass flag of the start (R138). -/
structure CompWrite where
  writer : Writer
  place : Nat
  record : CompRecord
  bytes : List Byte
  deriving DecidableEq, Repr

/-- The context of an ACTIVE completion ring (R136).  `waiting` holds the writers whose requests have been taken and whose writes have
not begun, oldest first (R138). -/
structure CRing where
  base : Addr
  sizeCode : Nat
  tail : Nat
  head : Nat
  written : Nat
  reserved : Nat
  pass : Bool
  threshold : Nat
  time : Nat
  intEnable : Bool
  unsignalled : Nat
  /-- the device time in µs at which the coalescing timer started, or none when stopped -/
  timer : Option Nat
  write : Option CompWrite
  waiting : List Writer
  deriving DecidableEq, Repr

/-! ## Submission rings and the pool ring -/

/-- The context of a submission ring in ACTIVE, PAUSED or DRAINING (R122). -/
structure SubRing where
  state : RingState
  base : Addr
  sizeCode : Nat
  head : Nat
  tail : Nat
  line : Option LineId
  cls : Option ClassId
  cring : CRingId
  inFlight : Nat
  fenced : Bool
  deriving DecidableEq, Repr

/-- The context of an ACTIVE pool ring (R113). -/
structure Pool where
  base : Addr
  sizeCode : Nat
  head : Nat
  tail : Nat
  deriving DecidableEq, Repr

/-! ## The Admin Processor (R152) -/

/-- What a waiting admin command waits for (R155). -/
inductive AdminWait where
  | lineStart (line : LineId)
  | lineStop (line : LineId)
  | lineAbort (line : LineId)
  | ringDelete (ring : RingId)
  | detach (entry : EntryId)
  deriving DecidableEq, Repr

/-- The command in progress of the Admin Processor (R152). -/
structure AdminCommand where
  record : List Byte
  abandoned : Nat
  report : List Byte
  wait : Option AdminWait
  result : Option (Status × Nat)
  deriving DecidableEq, Repr

/-- A record read in progress of ring 0: its place, fixed when the read began, and the host address of that place (R123, R128). -/
structure PlaceRead where
  place : Nat
  addr : Addr
  deriving DecidableEq, Repr

/-- The Admin Processor.  `requested` says that the completion write of a command in COMPLETING has been requested of C0, `read` is the record
read in progress in READING (R134). -/
structure Admin where
  phase : AdminPhase
  command : Option AdminCommand
  requested : Bool
  read : Option PlaceRead
  deriving DecidableEq, Repr

/-! ## Slots (R38) -/

/-- The outcome decided for a slot's completion: status, detail, response length and result value (R102, R103). -/
structure SlotOutcome where
  status : Status
  detail : Detail
  respLen : Nat
  result : Nat
  deriving DecidableEq, Repr

/-- A non-FREE slot (R38).  `decided` is the status that an event taken during LOADING decided (R46), `response` the delivered payload of a
slot in STORING (R59), and `fenceHeld` says that the slot's record set its ring's fenced-outstanding flag (R45, R47). -/
structure Slot where
  state : SlotState
  record : List Byte
  ring : RingId
  age : Nat
  attempts : Nat
  busy : Nat
  lastCause : Option Cause
  syncAttempt : Bool
  lastAttempt : Bool
  payload : List Byte
  decided : Option Status
  response : List Byte
  fenceHeld : Bool
  outcome : Option SlotOutcome
  deriving DecidableEq, Repr

/-- An event taken while a record read is in progress, kept until the read ends (R42). -/
inductive ReadEvent where
  | decided (status : Status)
  | detached (addr : Nat)
  deriving DecidableEq, Repr

/-- An Intake's record read in progress (R41, R42): the ring, the place fixed at the beginning and its host address (R123), and the events
since, oldest first. -/
structure IntakeRead where
  ring : RingId
  place : Nat
  addr : Addr
  events : List ReadEvent
  deriving DecidableEq, Repr

/-! ## Line Controllers (R63, R86, R88) -/

/-- The line configuration record (R86).  `noticeRing` none is NONE; `rate` is the rate code. -/
structure LineConfig where
  mode : Mode
  rate : Nat
  parity : Parity
  stopBits : Nat
  lead : Nat
  respTimeout : Nat
  gapLimit : Nat
  settle : Nat
  suspectAfter : Nat
  offlineAfter : Nat
  busyHoldOff : Nat
  busyLimit : Nat
  probeInterval : Nat
  noticeRing : Option CRingId
  deriving DecidableEq, Repr

/-- Who asked for the attempt in progress (R63). -/
inductive Requester where
  | slot (slot : SlotId)
  | scanner
  deriving DecidableEq, Repr

/-- The attempt in progress (R63).  `addr` 0 is a broadcast. -/
structure Attempt where
  requester : Requester
  addr : Nat
  frame : List Byte
  sync : Bool
  deriving DecidableEq, Repr

/-- The receive record (R63): each part present once received. -/
structure RxRecord where
  addr : Option Byte
  ctrl : Option Byte
  len : Option Byte
  payload : List Byte
  check : List Byte
  deriving DecidableEq, Repr

/-- The timers of a line, each the device time in µs at which it started from 0, or none when stopped (R63). -/
structure Timers where
  lead : Option Nat
  response : Option Nat
  gap : Option Nat
  settle : Option Nat
  settleLimit : Option Nat
  startQuiet : Option Nat
  startLimit : Option Nat
  stuck : Option Nat
  deriving DecidableEq, Repr

/-- The line counters (R88). -/
structure Counters where
  attempts : Nat
  delivered : Nat
  busy : Nat
  timeouts : Nat
  check : Nat
  parity : Nat
  framing : Nat
  truncated : Nat
  toggle : Nat
  protocol : Nat
  conflict : Nat
  stray : Nat
  late : Nat
  scanStarves : Nat
  poolStarves : Nat
  deriving DecidableEq, Repr

/-- The output and input pins of a line (section 10.6).  `shifting` is the bits of the character now on TXD, first bit first, empty while
TXD rests at mark (on a clocked line in LEAD the model's choice: notes/assumptions/50.md); `clocking` says that SCLK runs; `rxd` is the level
of RXD. -/
structure Pins where
  de : Bool
  sel : Bool
  clocking : Bool
  shifting : List Bool
  rxd : Level
  deriving DecidableEq, Repr

/-! ## Scanner and notice writer (R106, R117) -/

/-- A delivery of scan data (R106).  `entryAddr` is the host address of the pool entry taken, at which its 8 bytes are read (R113, R114),
`buffer` is the buffer address once read, `status` once decided, `state` the station state at the composing of the record (R115). -/
structure Delivery where
  entry : EntryId
  addr : Nat
  poolIndex : Nat
  entryAddr : Addr
  payload : List Byte
  buffer : Option Addr
  status : Option Status
  state : Option StationState
  deriving DecidableEq, Repr

/-- A Scanner (R106).  `reservation` names the completion ring in which the reservation was made; `refused` says that a claim was refused
and the notice ring has gained no place since (R109). -/
structure Scanner where
  state : ScannerState
  reservation : Option CRingId
  polled : Option (EntryId × Bool)
  delivery : Option Delivery
  refused : Bool
  deriving DecidableEq, Repr

/-- A notice whose place is claimed and whose content is taken, waiting to be written or being written (R117). -/
structure Notice where
  cring : CRingId
  record : CompRecord
  deriving DecidableEq, Repr

/-- One Line Engine: Line Controller, Slot Table, Intake, Arbiter, Scanner and notice writer. -/
structure Line where
  config : Option LineConfig
  run : RunState
  faultCause : Option LineFault
  lastFault : Option LineFault
  phase : Option Phase
  attempt : Option Attempt
  sentPos : Nat
  /-- sent characters whose echo has been paired (R76) -/
  echoes : Nat
  /-- a CONFLICT has been found and the character on the line is being completed (R76) -/
  conflict : Bool
  /-- an abort stop waits for the character on the line to end (R69) -/
  abortStop : Bool
  rx : RxRecord
  conflictCount : Nat
  linePending : Bool
  counters : Counters
  timers : Timers
  /-- the response timer has expired while a character was in reception (R79) -/
  timeoutHeld : Bool
  /-- filler characters clocked in the hunt (R85) -/
  fillers : Nat
  /-- the async receiver has a character in reception (R3) -/
  inReception : Bool
  pins : Pins
  slots : Vector (Option Slot) 8
  nextAge : Nat
  intakeLast : Vector (Option RingId) 4
  arbLast : Vector (Option RingId) 4
  read : Option IntakeRead
  /-- the slot whose completion write the Line Engine has requested or is writing (R60) -/
  txnWriter : Option SlotId
  scanner : Scanner
  notice : Option Notice
  noticeQueue : List EntryId
  deriving DecidableEq, Repr

/-! ## The station table (R19) -/

/-- A station entry in use (R19). -/
structure Station where
  line : LineId
  addr : Nat
  state : StationState
  toggle : Bool
  syncNeeded : Bool
  failureCount : Nat
  /-- a device time in ms -/
  holdUntil : Option Nat
  redelivery : Bool
  scanPeriod : Nat
  /-- a device time in ms -/
  nextDue : Nat
  noticePending : Bool
  changes : Nat
  exchanges : Nat
  failures : Nat
  busy : Nat
  redeliveries : Nat
  losses : Nat
  lastKind : Option RespKind
  deriving DecidableEq, Repr

/-! ## The whole state -/

/-- The state of the 4808. -/
structure State where
  /-- device state (R171) -/
  device : DeviceState
  /-- ENABLE of DEVCTL (R171) -/
  enable : Bool
  /-- INT_ENABLE of DEVCTL (R171) -/
  intEnable : Bool
  /-- the bootstrap address, BOOT_HI and BOOT_LO (R171) -/
  bootAddr : Addr
  /-- reset cause (R171) -/
  resetCause : ResetCause
  /-- fault code (R171) -/
  faultCode : FaultCode
  /-- last POST error (R125) -/
  postError : PostError
  /-- INTCAUSE: bits 0 to 3 C0 to C3, bit 4 FAULT, bit 5 POSTERR (R147) -/
  intcause : BitVec 6
  /-- device time in µs, a 64-bit count (R171) -/
  deviceTime : BitVec 64
  /-- the bootstrap address fixed for the load in progress (R173) -/
  loadAddr : Option Addr
  /-- submission ring contexts, none when ABSENT (R122) -/
  rings : Vector (Option SubRing) 16
  /-- the pool context, none when ABSENT (R113) -/
  pool : Option Pool
  /-- completion ring contexts, none when ABSENT (R136) -/
  crings : Vector (Option CRing) 4
  /-- the Admin Processor (R152) -/
  admin : Admin
  /-- the eight Line Engines -/
  lines : Vector Line 8
  /-- the station table, none for a free entry (R18) -/
  stations : Vector (Option Station) 128
  /-- the model's own field: the bytes the device has written to host memory, in canonical form -/
  hostMem : List Host.Cell
  /-- the model's own field: how many free choices have been taken -/
  choices : Nat
  /-- the model's own field: the commands and events waiting, first in, first out -/
  pending : List Instr
  deriving DecidableEq, Repr

/-- The faults of a step.  There is none: every command and event of the 4808 has a next state, and what the manual calls a fault of
the device or of a line is a change of state (R71, R176). -/
inductive Fault where
  deriving DecidableEq, Repr

/-- The refusals of a step. -/
inductive Refusal where
  /-- Raised by exec's arm of a command that has no meaning yet; safe, since no claim rests on a step that is not taken. -/
  | notModelled (mnemonic : String)
  deriving DecidableEq, Repr

/-! ## Reset values -/

/-- A receive record with nothing received. -/
def RxRecord.empty : RxRecord := ⟨none, none, none, [], []⟩

/-- Every timer stopped (R63). -/
def Timers.stopped : Timers := ⟨none, none, none, none, none, none, none, none⟩

/-- Every line counter 0 (R88). -/
def Counters.zero : Counters := ⟨0, 0, 0, 0, 0, 0, 0, 0, 0, 0, 0, 0, 0, 0, 0⟩

/-- A Scanner after reset and at OFF (R106). -/
def Scanner.reset : Scanner := ⟨.idle, none, none, none, false⟩

/-- The pins of a line with DE off, SEL deasserted, SCLK low and TXD at mark, RXD at the given level (R2, R5, R178). -/
def Pins.quiet (rxd : Level) : Pins := ⟨false, false, false, [], rxd⟩

/-- A Line Engine after power-on reset, after HARD_RESET and at OFF, its RXD input at the given level (R38, R63, R106). -/
def Line.reset (rxd : Level) : Line where
  config := none
  run := .stopped
  faultCause := none
  lastFault := none
  phase := none
  attempt := none
  sentPos := 0
  echoes := 0
  conflict := false
  abortStop := false
  rx := .empty
  conflictCount := 0
  linePending := false
  counters := .zero
  timers := .stopped
  timeoutHeld := false
  fillers := 0
  inReception := false
  pins := .quiet rxd
  slots := Vector.replicate 8 none
  nextAge := 0
  intakeLast := Vector.replicate 4 none
  arbLast := Vector.replicate 4 none
  read := none
  txnWriter := none
  scanner := .reset
  notice := none
  noticeQueue := []

/-- The Admin Processor after reset and at OFF (R152). -/
def Admin.reset : Admin := ⟨.idle, none, false, none⟩

/-- The 4808 after power-on reset (R178).  The level of each RXD input is mark, the first free choice is number 0 and nothing has been
written to host memory: DESIGN CHOICE (notes/assumptions/5.md). -/
def State.reset : State where
  device := .off
  enable := false
  intEnable := false
  bootAddr := 0
  resetCause := .power
  faultCode := .none
  postError := .none
  intcause := 0
  deviceTime := 0
  loadAddr := none
  rings := Vector.replicate 16 none
  pool := none
  crings := Vector.replicate 4 none
  admin := .reset
  lines := Vector.replicate 8 (Line.reset .mark)
  stations := Vector.replicate 128 none
  hostMem := []
  choices := 0
  pending := []

end Sys2Proof.Machine
end

