-- ==== Sys2Proof/Machine/Operands.lean ====
section
/-! DEFINITION. Operand forms: numbers of lines, rings, classes and entries read from record bytes, host address ranges, ring index
arithmetic, the resolution of a LINE_CONFIG record, and the line times derived from a configuration. -/

namespace Sys2Proof.Machine

/-! ## Numbers of objects (the range checks of R153) -/

/-- The index below `n` that a byte names, or none when it is out of range. -/
def indexOf (n : Nat) (b : Byte) : Option (Fin n) := if h : b.toNat < n then some ⟨b.toNat, h⟩ else none

/-- The line a byte names, 0 to 7. -/
def lineOf (b : Byte) : Option LineId := indexOf 8 b

/-- The submission ring a byte names, 1 to 15: ring 0 is named by no RING_* command (R133). -/
def txnRingOf (b : Byte) : Option RingId := if b == 0 then none else indexOf 16 b

/-- The completion ring a byte names, C0 to C3. -/
def cringOf (b : Byte) : Option CRingId := indexOf 4 b

/-- The completion ring a byte names, C1 to C3: C0 is named by no CRING_CREATE or CRING_DELETE (R150). -/
def laterCringOf (b : Byte) : Option CRingId := if b == 0 then none else indexOf 4 b

/-- The class a byte names, 0 to 3. -/
def classOf (b : Byte) : Option ClassId := indexOf 4 b

/-- The station entry a byte names, 0 to 127. -/
def entryOf (b : Byte) : Option EntryId := indexOf 128 b

/-- A station address 1 to 126 (R18). -/
def stationAddrOk (b : Byte) : Bool := decide (1 ≤ b.toNat ∧ b.toNat ≤ 126)

/-- A scan period: 0, or 5 to 65535 ms (R167, R169). -/
def scanPeriodOk (p : Half) : Bool := decide (p.toNat = 0 ∨ 5 ≤ p.toNat)

/-! ## Ranges of host addresses (R91) -/

/-- A range of `n` bytes from `a` is issued: it does not reach above 2^64 − 1 (R91).
DEDUCED, unsafe: notes/assumptions/28.md. -/
def rangeOk (a : Addr) (n : Nat) : Bool := decide (n = 0 ∨ a.toNat + n ≤ 2 ^ 64)

/-- Exactly `n` bytes of what a read of `n` bytes returned.
DESIGN CHOICE, safe: notes/assumptions/34.md. -/
def fitBytes (n : Nat) (bs : List Byte) : List Byte := (List.range n).map fun k => byteAt bs k

/-! ## Ring indices (00_scope Rings, R123, R137) -/

/-- The size of a ring with size code `c` (R123, R137, R162). -/
def ringSize (c : Nat) : Nat := 2 ^ c

/-- The index after `i` in a ring of `size` places. -/
def nextIndex (size i : Nat) : Nat := (i + 1) % size

/-- `b` minus `a` modulo the size: the places from index `a` up to but not including `b`. -/
def indexDistance (size a b : Nat) : Nat := (b + size - a) % size

/-- The pending count of a submission ring (R123). -/
def SubRing.pendingCount (r : SubRing) : Nat := indexDistance (ringSize r.sizeCode) r.head r.tail

/-- The host address of place `i` of a submission ring: base address + 32 × i (R123). -/
def SubRing.placeAddr (r : SubRing) (i : Nat) : Addr := r.base + BitVec.ofNat 64 (32 * i)

/-- The host address of entry `i` of the pool ring: base address + 8 × i (R113). -/
def Pool.entryAddr (p : Pool) (i : Nat) : Addr := p.base + BitVec.ofNat 64 (8 * i)

/-- The untaken entries of the pool ring (R113). -/
def Pool.untaken (p : Pool) : Nat := indexDistance (ringSize p.sizeCode) p.head p.tail

/-- The places of a completion ring that are neither written-unreleased nor reserved (R140). -/
def CRing.free (c : CRing) : Nat := ringSize c.sizeCode - (c.written + c.reserved)

/-! ## Line configuration (R86, R180) -/

/-- Bit rates of an async line by rate code (section 11.6). -/
def asyncRates : List Nat := [1200, 2400, 4800, 9600, 19200, 38400, 57600, 115200, 230400, 460800, 921600]

/-- Bit rates of a clocked line by rate code (section 11.6). -/
def clockedRates : List Nat := [125000, 250000, 500000, 1000000, 2000000, 4000000]

/-- The bit rates of a mode. -/
def ratesOf : Mode → List Nat
  | .async => asyncRates
  | .clocked => clockedRates

/-- The line mode a mode byte names (R180). -/
def modeOf (b : Byte) : Option Mode :=
  if b == 0 then some .async else if b == 1 then some .clocked else none

/-- The parity a parity value names (R180). -/
def parityOf (v : Nat) : Option Parity :=
  if v = 0 then some .none else if v = 1 then some .even else if v = 2 then some .odd else none

/-- The notice ring a value names: 0 to 3 for C0 to C3, 4 for NONE (R180). -/
def noticeRingOf (v : Nat) : Option (Option CRingId) :=
  if h : v < 4 then some (some ⟨v, h⟩) else if v = 4 then some none else none

/-- A field's value, or its default when its mask bit is set (R180). -/
def orDefault (f : LineFields) (bit value dflt : Nat) : Nat := if f.mask.getLsbD bit then dflt else value

/-- `v` lies in the range `lo` to `hi`. -/
def within (lo hi v : Nat) : Bool := decide (lo ≤ v ∧ v ≤ hi)

/-- The configuration record that a LINE_CONFIG's fields resolve to, masked fields at their defaults, or none where a resolved value breaks
a BAD_PARAM test of R164 (R86, R180). -/
def resolveConfig (f : LineFields) : Option LineConfig :=
  match modeOf f.mode, parityOf (orDefault f 0 f.parity.toNat 0), noticeRingOf (orDefault f 10 f.noticeRing.toNat 4) with
  | some mode, some parity, some noticeRing =>
    let c : LineConfig :=
      { mode := mode
        rate := f.rate.toNat
        parity := parity
        stopBits := orDefault f 1 f.stopBits.toNat 1
        lead := orDefault f 2 f.lead.toNat 2
        respTimeout := orDefault f 3 f.respTimeout.toNat 40
        gapLimit := orDefault f 4 f.gapLimit.toNat 3
        settle := orDefault f 5 f.settle.toNat 2
        suspectAfter := orDefault f 6 f.suspectAfter.toNat 2
        offlineAfter := orDefault f 7 f.offlineAfter.toNat 4
        busyHoldOff := orDefault f 8 f.busyHoldOff.toNat 10
        busyLimit := orDefault f 9 f.busyLimit.toNat 16
        probeInterval := orDefault f 11 f.probeInterval.toNat 1000
        noticeRing := noticeRing }
    if decide (c.rate < (ratesOf mode).length)
        && (mode == .async || parity == .none)
        && within 1 2 c.stopBits
        && within 2 4095 c.respTimeout
        && within 2 15 c.gapLimit
        && within 1 15 c.settle
        && within 1 15 c.suspectAfter
        && within c.suspectAfter 15 c.offlineAfter
        && within 1 1000 c.busyHoldOff
        && within 100 65535 c.probeInterval
    then some c else none
  | _, _, _ => none

/-! ## Line times (R1) -/

/-- The bit rate of a configured line, in bit/s. -/
def LineConfig.bitRate (c : LineConfig) : Nat := (ratesOf c.mode).getD c.rate 1

/-- The bits of one character: 10 + p + s on an async line, 8 on a clocked line (R1). -/
def LineConfig.charBits (c : LineConfig) : Nat :=
  match c.mode with
  | .async => 10 + (if c.parity = .none then 0 else 1) + c.stopBits
  | .clocked => 8

/-- The device time in µs, rounded up, that `n` bit times of the line take (R1).
DESIGN CHOICE, unsafe: notes/assumptions/25.md. -/
def LineConfig.bitsUs (c : LineConfig) (n : Nat) : Nat := (n * 1000000 + c.bitRate - 1) / c.bitRate

/-- The device time in µs, rounded up, that `n` character times of the line take (R1).
DESIGN CHOICE, unsafe: notes/assumptions/25.md. -/
def LineConfig.charsUs (c : LineConfig) (n : Nat) : Nat := c.bitsUs (n * c.charBits)

end Sys2Proof.Machine
end

