-- ==== Sys2Proof/Machine/Flags.lean ====
section
/-! DEFINITION. Code values of the named values (section 11.6), the cause bits of INTCAUSE, the INTR level, and the words the registers
read as (R147, R149, R171, section 11.5). -/

namespace Sys2Proof.Machine

/-! ## Code values (section 11.6) -/

/-- The code of a status. -/
def Status.code : Status → Byte
  | .ok => 0 | .refused => 1 | .overlength => 2 | .hostWriteError => 3 | .hostReadError => 4
  | .stationBusy => 5 | .noResponse => 6 | .lineError => 7 | .stationOffline => 8 | .noStation => 9
  | .detached => 10 | .badRecord => 11 | .aborted => 12 | .lineFault => 13 | .badParam => 14
  | .wrongState => 15 | .noRoom => 16 | .notFound => 17 | .inUse => 18

/-- The detail code of a failure cause. -/
def Cause.code : Cause → Byte
  | .timeout => 1 | .check => 2 | .parity => 3 | .framing => 4
  | .truncated => 5 | .protocol => 6 | .toggle => 7 | .conflict => 8

/-- The code of a detail. -/
def Detail.code : Detail → Byte
  | .none => 0
  | .cause c => c.code
  | .synced => 9

/-- The code of a completion kind. -/
def CompKind.code : CompKind → Byte
  | .txn => 1 | .admin => 2 | .scanData => 3 | .stationNotice => 4 | .lineNotice => 5

/-- The code of a station state, NONE when there is no entry. -/
def stationStateCode : Option StationState → Byte
  | none => 0
  | some .new => 1
  | some .online => 2
  | some .suspect => 3
  | some .offline => 4
  | some .detaching => 5

/-- The code of a last response kind. -/
def lastKindCode : Option RespKind → Byte
  | none => 0
  | some .done => 1
  | some .data => 2
  | some .empty => 3
  | some .busy => 4
  | some .refused => 5

/-- The code of a line run state. -/
def RunState.code : RunState → Byte
  | .stopped => 0 | .starting => 1 | .running => 2 | .stopping => 3 | .faulted => 4

/-- The code of an exchange phase, 0 when absent. -/
def phaseCode : Option Phase → Byte
  | none => 0
  | some .idle => 1
  | some .lead => 2
  | some .sending => 3
  | some .awaiting => 4
  | some .receiving => 5
  | some .settle => 6

/-- The code of a line fault cause, NONE when absent. -/
def lineFaultCode : Option LineFault → Byte
  | none => 0
  | some .notQuiet => 1
  | some .stuck => 2
  | some .conflict => 3

/-- The code of a device state. -/
def DeviceState.code : DeviceState → BitVec 3
  | .off => 0 | .loading => 1 | .running => 2 | .disabling => 3 | .faulted => 4

/-- The code of a reset cause. -/
def ResetCause.code : ResetCause → BitVec 2
  | .power => 0 | .hard => 1 | .disable => 2 | .faultClear => 3

/-- The code of a device fault code. -/
def FaultCode.code : FaultCode → BitVec 3
  | .none => 0 | .bootRead => 1 | .badBoot => 2 | .ringRead => 3 | .poolRead => 4 | .compWrite => 5

/-- The code of a last POST error. -/
def PostError.code : PostError → BitVec 2
  | .none => 0 | .notRunning => 1 | .noRing => 2 | .badIndex => 3

/-- The code of a line mode (R180). -/
def Mode.code : Mode → Byte
  | .async => 0 | .clocked => 1

/-- The code of a parity setting (R180). -/
def Parity.code : Parity → Byte
  | .none => 0 | .even => 1 | .odd => 2

/-- The code of a notice ring: 0 to 3, 4 for NONE (R180). -/
def noticeRingCode : Option CRingId → Byte
  | none => 4
  | some r => BitVec.ofNat 8 r.val

/-! ## INTCAUSE and INTR (R147, R149) -/

/-- The FAULT bit of INTCAUSE (section 11.5). -/
def faultBit : Nat := 4

/-- The POSTERR bit of INTCAUSE (section 11.5). -/
def postErrBit : Nat := 5

/-- A cause word with bit `k` set and every other bit clear. -/
def causeMask (k : Nat) : BitVec 6 := BitVec.twoPow 6 k

/-- A cause bit as it stands. -/
def State.causeSet (s : State) (k : Nat) : Bool := s.intcause.getLsbD k

/-- Sets a cause bit (R147). -/
def State.setCause (s : State) (k : Nat) : State := { s with intcause := s.intcause ||| causeMask k }

/-- Clears a cause bit (R147, R148). -/
def State.clearCause (s : State) (k : Nat) : State := { s with intcause := s.intcause &&& ~~~(causeMask k) }

/-- A completion ring's cause is set and its ring exists and has its interrupt enable (R149). -/
def State.ringAsserts (s : State) (r : CRingId) : Bool :=
  s.causeSet r.val && (match vget s.crings r with
    | some c => c.intEnable
    | none => false)

/-- The level of INTR: asserted exactly when INT_ENABLE is 1 and FAULT, POSTERR or an enabled ring's cause is set (R149). -/
def State.intr (s : State) : Bool :=
  s.intEnable && (s.causeSet faultBit || s.causeSet postErrBit || (List.finRange 4).any s.ringAsserts)

/-! ## The words the registers read as (R171, section 11.5) -/

/-- DEVID: family code 0x4808, the revision code of the part, the line count 8. -/
def devidWord : Word := (0#4 : BitVec 4) ++ (8#4 : BitVec 4) ++ Config.revisionCode ++ (0x4808#16 : BitVec 16)

/-- DEVCTL: ENABLE and INT_ENABLE as they stand, HARD_RESET as 0. -/
def State.devctlWord (s : State) : Word := (0#30 : BitVec 30) ++ BitVec.ofBool s.intEnable ++ BitVec.ofBool s.enable

/-- DEVSTAT: device state, reset cause, fault code and last POST error. -/
def State.devstatWord (s : State) : Word :=
  (0#18 : BitVec 18) ++ s.postError.code ++ (0#1 : BitVec 1) ++ s.faultCode.code ++ (0#2 : BitVec 2)
    ++ s.resetCause.code ++ (0#1 : BitVec 1) ++ s.device.code

/-- What a read of a register returns; a read changes nothing (R125, R142, R147, R171).
DEDUCED, safe: notes/assumptions/38.md. -/
def State.readReg (s : State) : Reg → Word
  | .devid => devidWord
  | .devctl => s.devctlWord
  | .devstat => s.devstatWord
  | .bootLo => s.bootAddr.extractLsb' 0 32
  | .bootHi => s.bootAddr.extractLsb' 32 32
  | .post => 0
  | .release => 0
  | .intcause => s.intcause.setWidth 32

end Sys2Proof.Machine
end

