-- ==== Sys2Proof/Machine/Ops.lean ====
section
/-! DEFINITION. The named operations over the state: the parts of State and their replacement, device time, host memory as the device
has written it, the free choices, and the Completion Unit's claims, returns, causes and write requests. -/

namespace Sys2Proof.Machine

/-! ## The parts of State -/

/-- Line Engine `l`. -/
def State.line (s : State) (l : LineId) : Line := vget s.lines l

/-- The state with Line Engine `l` replaced. -/
def State.setLine (s : State) (l : LineId) (x : Line) : State := { s with lines := vput s.lines l x }

/-- The state with `f` applied to Line Engine `l`. -/
def State.modLine (s : State) (l : LineId) (f : Line → Line) : State := s.setLine l (f (s.line l))

/-- The context of submission ring `r`, none when ABSENT. -/
def State.ring (s : State) (r : RingId) : Option SubRing := vget s.rings r

/-- The state with the context of submission ring `r` replaced. -/
def State.setRing (s : State) (r : RingId) (x : Option SubRing) : State := { s with rings := vput s.rings r x }

/-- The state with `f` applied to submission ring `r`'s context, if it exists. -/
def State.modRing (s : State) (r : RingId) (f : SubRing → SubRing) : State := s.setRing r ((s.ring r).map f)

/-- The context of completion ring `r`, none when ABSENT. -/
def State.cring (s : State) (r : CRingId) : Option CRing := vget s.crings r

/-- The state with the context of completion ring `r` replaced. -/
def State.setCRing (s : State) (r : CRingId) (x : Option CRing) : State := { s with crings := vput s.crings r x }

/-- The state with `f` applied to completion ring `r`'s context, if it exists. -/
def State.modCRing (s : State) (r : CRingId) (f : CRing → CRing) : State := s.setCRing r ((s.cring r).map f)

/-- Station entry `e`, none when free. -/
def State.station (s : State) (e : EntryId) : Option Station := vget s.stations e

/-- The state with station entry `e` replaced. -/
def State.setStation (s : State) (e : EntryId) (x : Option Station) : State := { s with stations := vput s.stations e x }

/-- The state with `f` applied to station entry `e`, if it is in use. -/
def State.modStation (s : State) (e : EntryId) (f : Station → Station) : State := s.setStation e ((s.station e).map f)

/-- Slot `i` of a line, none when FREE. -/
def Line.slot (x : Line) (i : SlotId) : Option Slot := vget x.slots i

/-- The line with slot `i` replaced. -/
def Line.setSlot (x : Line) (i : SlotId) (v : Option Slot) : Line := { x with slots := vput x.slots i v }

/-- The line with `f` applied to slot `i`, if it is not FREE. -/
def Line.modSlot (x : Line) (i : SlotId) (f : Slot → Slot) : Line := x.setSlot i ((x.slot i).map f)

/-- The line with `f` applied to every non-FREE slot. -/
def Line.mapSlots (x : Line) (f : Slot → Slot) : Line := { x with slots := vmap (Option.map f) x.slots }

/-- Slot `i` of line `l`, none when FREE. -/
def State.slot (s : State) (l : LineId) (i : SlotId) : Option Slot := (s.line l).slot i

/-- The state with `f` applied to slot `i` of line `l`, if it is not FREE. -/
def State.modSlot (s : State) (l : LineId) (i : SlotId) (f : Slot → Slot) : State := s.modLine l (·.modSlot i f)

/-- The fields of a slot's record (R38, R89). -/
def Slot.sub (x : Slot) : SubRec := decodeSub x.record

/-- The station address of a slot's record, 0 for BROADCAST. -/
def Slot.addr (x : Slot) : Nat := x.sub.addr.toNat

/-- Every slot of the line is FREE. -/
def Line.allFree (x : Line) : Bool := (List.finRange 8).all fun i => (x.slot i).isNone

/-- The device is in a state in which work is in hand: RUNNING or DISABLING (10_device_control, table).
DEDUCED, unsafe: notes/assumptions/35.md. -/
def State.working (s : State) : Bool := s.device == .running || s.device == .disabling

/-! ## Device time (R171) -/

/-- Device time in microseconds.
DESIGN CHOICE, safe: notes/assumptions/9.md. -/
def State.nowUs (s : State) : Nat := s.deviceTime.toNat

/-- Device time in milliseconds: the microsecond count divided by 1000, rounded down (R171). -/
def State.nowMs (s : State) : Nat := s.nowUs / 1000

/-- The Timebase has reached the device time `t` µs: an event that device time reaching a moment brings about is taken at that moment or
later (DESIGN CHOICE, notes/assumptions/6.md). -/
def State.reachUs (s : State) (t : Nat) : State := { s with deviceTime := BitVec.ofNat 64 (max s.nowUs t) }

/-! ## Host memory as the device has written it -/

/-- The image with the byte at `a` written, addresses strictly rising. -/
def memPut : List Host.Cell → Nat → Byte → List Host.Cell
  | [], a, b => [(a, b)]
  | (k, v) :: rest, a, b =>
    if a < k then (a, b) :: (k, v) :: rest
    else if a = k then (a, b) :: rest
    else (k, v) :: memPut rest a b

/-- The byte the device has last written at `a`, none where it has written nothing and host memory holds what the host put there.
DESIGN CHOICE, unsafe: notes/assumptions/12.md. -/
def memRead : List Host.Cell → Nat → Option Byte
  | [], _ => none
  | (k, v) :: rest, a => if a = k then some v else memRead rest a

/-- Every address of the image is at least `lo` and addresses rise strictly. -/
def memWfFrom : Nat → List Host.Cell → Bool
  | _, [] => true
  | lo, (k, _) :: rest => decide (lo ≤ k) && memWfFrom (k + 1) rest

/-- The canonical form of the image: addresses strictly rising.  An unlisted address reads as none, which no entry equals. -/
def memWf (m : List Host.Cell) : Bool := memWfFrom 0 m

/-- The image with the bytes written from `a` upward, byte `k` at `a + k` (R91, R96). -/
def memWrite : List Host.Cell → Nat → List Byte → List Host.Cell
  | m, _, [] => m
  | m, a, b :: bs => memWrite (memPut m a b) (a + 1) bs

/-- The image with those bytes written that the mask marks as having reached memory (R97). -/
def memWriteMasked : List Host.Cell → Nat → List Byte → List Bool → List Host.Cell
  | m, _, [], _ => m
  | m, a, b :: bs, ms => memWriteMasked (if ms.headD false then memPut m a b else m) (a + 1) bs ms.tail

/-- The bytes are written to host memory from `a` upward. -/
def State.hostWrite (s : State) (a : Nat) (bs : List Byte) : State := { s with hostMem := memWrite s.hostMem a bs }

/-- A write that ended with an error has left the marked bytes in host memory (R97, R114, R170). -/
def State.hostWriteMasked (s : State) (a : Nat) (bs : List Byte) (landed : List Bool) : State :=
  { s with hostMem := memWriteMasked s.hostMem a bs landed }

/-- A write that a device fault or a reset has cut off has left a free choice of its bytes in host memory (R96, R178,
notes/assumptions/3.md). -/
def State.hostWriteCut (s : State) (a : Nat) (bs : List Byte) : State :=
  { s.hostWriteMasked a bs ((List.range bs.length).map (Config.byteLanded s.choices)) with choices := s.choices + 1 }

/-! ## The Completion Unit: claims and returns (R140, R141) -/

/-- A claim for one reservation in ring `r` would be granted: written-unreleased plus reserved is below the size (R140). -/
def State.canReserve (s : State) (r : CRingId) : Bool :=
  match s.cring r with
  | some c => decide (c.written + c.reserved < ringSize c.sizeCode)
  | none => false

/-- A granted claim raises reserved by 1 (R140). -/
def State.reserve (s : State) (r : CRingId) : State := s.modCRing r fun c => { c with reserved := c.reserved + 1 }

/-- Ring `r` has gained a place: a Scanner whose notice ring it is and whose claim was refused claims again (R109, R141). -/
def Line.placeGained (r : CRingId) (x : Line) : Line :=
  match x.config with
  | some c => if c.noticeRing = some r then { x with scanner := { x.scanner with refused := false } } else x
  | none => x

/-- Ring `r` has gained a place (R141). -/
def State.gainPlace (s : State) (r : CRingId) : State := { s with lines := vmap (Line.placeGained r) s.lines }

/-- A reservation in ring `r` is returned unused: reserved falls by 1 and the ring gains a place (R141). -/
def State.returnReservation (s : State) (r : CRingId) : State :=
  (s.modCRing r fun c => { c with reserved := c.reserved - 1 }).gainPlace r

/-! ## Coalescing and causes (R144) -/

/-- Ring `r`'s cause is set, its unsignalled count becomes 0 and its coalescing timer stops (R144). -/
def State.signalRing (s : State) (r : CRingId) : State :=
  (s.setCause r.val).modCRing r fun c => { c with unsignalled := 0, timer := none }

/-- The coalescing steps at the end of a record write into ring `r` (R144). -/
def State.coalesce (s : State) (r : CRingId) (urgent : Bool) : State :=
  let s := s.modCRing r fun c => { c with unsignalled := satSucc 255 c.unsignalled }
  match s.cring r with
  | none => s
  | some c =>
    if urgent then s.signalRing r
    else if c.threshold ≤ c.unsignalled then s.signalRing r
    else if c.timer = none ∧ c.time ≠ 0 then s.setCRing r (some { c with timer := some s.nowUs })
    else s

/-- A rejected POST or RELEASE: POSTERR is set and the reason replaces the last POST error (R125, R142). -/
def State.rejectPost (s : State) (e : PostError) : State := { s.setCause postErrBit with postError := e }

/-- A writer's request for a write into ring `r` is taken (R138). -/
def State.requestWrite (s : State) (r : CRingId) (w : Writer) : State :=
  s.modCRing r fun c => { c with waiting := c.waiting ++ [w] }

/-! ## The station table: lookup (R18) -/

/-- Entry `e` is in use with the key (line, address). -/
def State.entryHasKey (s : State) (l : LineId) (a : Nat) (e : EntryId) : Bool :=
  match s.station e with
  | some x => x.line == l && x.addr == a
  | none => false

/-- The index of the entry in use with the key, or none (R18). -/
def State.lookup (s : State) (l : LineId) (a : Nat) : Option EntryId := firstFin (s.entryHasKey l a)

/-- The entry in use with the key. -/
def State.keyed (s : State) (l : LineId) (a : Nat) : Option Station := (s.lookup l a).bind s.station

/-- The state of the entry in use with the key, or none (R104, R115, R154). -/
def State.keyedState (s : State) (l : LineId) (a : Nat) : Option StationState := (s.keyed l a).map (·.state)

/-- The station is held off or has redelivery pending, so that no slot for it may be READY (R48, R49). -/
def Station.blocked (x : Station) : Bool := x.holdUntil.isSome || x.redelivery

/-- A slot's station, if any, is held off or has redelivery pending.  A BROADCAST has no station (R48). -/
def State.addrBlocked (s : State) (l : LineId) (a : Nat) : Bool :=
  match s.keyed l a with
  | some x => x.blocked
  | none => false

end Sys2Proof.Machine
end

