-- ==== Sys2Proof/Machine/Protocol.lean ====
section
/-! DEFINITION. The Station Line Protocol: characters of async and clocked lines, request frames, check characters, the receiver's
reports and the judgement of a complete response (chapter 1, R79 to R81). -/

namespace Sys2Proof.Machine

/-! ## Characters on the line (R2, R5) -/

/-- The eight data bits of a character, least significant bit first. -/
def dataBits (v : Byte) : List Bool := (List.range 8).map v.getLsbD

/-- The parity bit of a character under a parity setting, over the eight data bits and the mark bit together (R2). -/
def parityBit (odd : Bool) (v : Byte) (mark : Bool) : Bool :=
  ((dataBits v).foldl xor mark) ^^ odd

/-- The bits of a character on TXD in sending order, true for mark.  Async: start bit at space, data bits least significant first, mark bit,
parity bit if configured, stop bits at mark (R2).  Clocked: the data bits most significant first (R5).
DESIGN CHOICE, safe: notes/assumptions/26.md. -/
def txBits (c : LineConfig) (v : Byte) (mark : Bool) : List Bool :=
  match c.mode with
  | .async =>
    [false] ++ dataBits v ++ [mark]
      ++ (match c.parity with
          | .none => []
          | .even => [parityBit false v mark]
          | .odd => [parityBit true v mark])
      ++ List.replicate c.stopBits true
  | .clocked => (dataBits v).reverse

/-- A character report of the receiver (R3). -/
structure Report where
  value : Byte
  mark : Bool
  parityError : Bool
  framingError : Bool
  deriving DecidableEq, Repr

/-- The report of a sampled character: parity error when the received parity bit does not agree with the received data and mark bits,
framing error when a configured stop bit was sampled at space; a clocked character has its value alone (R3, R5). -/
def reportOf (c : LineConfig) (r : RawChar) : Report :=
  match c.mode with
  | .async =>
    { value := r.data
      mark := r.mark
      parityError :=
        match c.parity with
        | .none => false
        | .even => r.parity != parityBit false r.data r.mark
        | .odd => r.parity != parityBit true r.data r.mark
      framingError := !r.stop1 || (c.stopBits == 2 && !r.stop2) }
  | .clocked => { value := r.data, mark := false, parityError := false, framingError := false }

/-! ## Check characters (R13) -/

/-- One data bit of the check computation: the register moves one place toward its top bit, and is combined with 0x1021 when its top
bit differed from the data bit (R13 step 3). -/
def checkBit (reg : BitVec 16) (bit : Bool) : BitVec 16 :=
  if reg.msb = bit then reg <<< 1 else (reg <<< 1) ^^^ 0x1021#16

/-- One byte of the check computation, most significant bit first (R13 step 2). -/
def checkByte (reg : BitVec 16) (v : Byte) : BitVec 16 := (dataBits v).reverse.foldl checkBit reg

/-- The check value of the covered bytes: the register starts with all bits 1 and is not inverted at the end (R13). -/
def checkValue (bs : List Byte) : BitVec 16 := bs.foldl checkByte 0xFFFF#16

/-- The two CHECK characters of the covered bytes, high byte first (R13). -/
def checkChars (bs : List Byte) : List Byte :=
  [(checkValue bs).extractLsb' 8 8, (checkValue bs).extractLsb' 0 8]

/-! ## Request frames (R8, R9) -/

/-- The CTRL code of a request kind (R9). -/
def ReqKind.code : ReqKind → BitVec 3
  | .fetch => 1 | .store => 2 | .poll => 3

/-- The CTRL character of a request: kind in bits 0 to 2, toggle in bit 3, SYNC in bit 4, bits 5 to 7 zero (R9). -/
def requestCtrl (k : ReqKind) (toggle sync : Bool) : Byte :=
  (0#3 : BitVec 3) ++ BitVec.ofBool sync ++ BitVec.ofBool toggle ++ k.code

/-- The request frame: ADDR, CTRL, LEN, payload and CHECK (R8). -/
def requestFrame (addr : Nat) (k : ReqKind) (toggle sync : Bool) (payload : List Byte) : List Byte :=
  let body := [BitVec.ofNat 8 addr, requestCtrl k toggle sync, BitVec.ofNat 8 payload.length] ++ payload
  body ++ checkChars body

/-- The kind in a request's CTRL character, by its code (R9). -/
def Attempt.kindCode (a : Attempt) : BitVec 3 := (byteAt a.frame 1).extractLsb' 0 3

/-- The toggle that a request carries (R9). -/
def Attempt.toggle (a : Attempt) : Bool := (byteAt a.frame 1).getLsbD 3

/-- The mark bit of character `k` of a frame: 1 on ADDR and 0 on every other character (R2, R8). -/
def frameMark (k : Nat) : Bool := k == 0

/-- The ADDR value of a response from station `addr`: 128 plus the address (R11). -/
def responseAddr (addr : Nat) : Byte := BitVec.ofNat 8 (128 + addr)

/-! ## Response frames (R11, R12, R81) -/

/-- The response kind of a CTRL code (R11). -/
def respKindOf (code : BitVec 3) : Option RespKind :=
  if code = 1 then some .done
  else if code = 2 then some .data
  else if code = 3 then some .empty
  else if code = 4 then some .busy
  else if code = 5 then some .refused
  else none

/-- The response kind is permitted for the request kind (R12).  Code 1 is FETCH, 2 STORE, 3 POLL (R9). -/
def permitted (req : BitVec 3) (k : RespKind) : Bool :=
  match k with
  | .busy => true
  | .refused => true
  | .done => req == 2
  | .data => req == 1 || req == 3
  | .empty => req == 3

/-- The LEN fits the response kind: 1 to 64 for DATA and 0 for the others (R12). -/
def lenFits (k : RespKind) (len : Nat) : Bool :=
  match k with
  | .data => decide (1 ≤ len ∧ len ≤ 64)
  | _ => len == 0

/-- What an attempt ended in (R82). -/
inductive AttemptOutcome where
  | response (kind : RespKind) (len : Nat) (payload : List Byte)
  | failure (cause : Cause)
  | sent
  deriving DecidableEq, Repr

/-- The check test of a complete frame: the computed check value equals the received CHECK characters (R13, R81 step 1). -/
def RxRecord.checkGood (r : RxRecord) : Bool :=
  r.check == checkChars ([r.addr.getD 0, r.ctrl.getD 0, r.len.getD 0] ++ r.payload)

/-- The response kind of a complete frame that is legal for the request, or none where it is not legal (R12, R81 step 2). -/
def RxRecord.legalKind (r : RxRecord) (req : BitVec 3) : Option RespKind :=
  let ctrl := r.ctrl.getD 0
  if ctrl.extractLsb' 4 4 ≠ 0 then none
  else match respKindOf (ctrl.extractLsb' 0 3) with
  | none => none
  | some k => if permitted req k && lenFits k (r.len.getD 0).toNat then some k else none

/-- The judgement of a complete response frame: check, then legality, then echo; the first test that fails decides.  The second part is
the kind that the entry records as its last response kind, present when check and legality pass (R35, R81). -/
def judgeFrame (a : Attempt) (r : RxRecord) : AttemptOutcome × Option RespKind :=
  if !r.checkGood then (.failure .check, none)
  else match r.legalKind a.kindCode with
  | none => (.failure .protocol, none)
  | some k =>
    if (r.ctrl.getD 0).getLsbD 3 = a.toggle then (.response k (r.len.getD 0).toNat r.payload, some k)
    else (.failure .toggle, some k)

/-- What storing one received character in the receive record leads to (R80). -/
inductive RxStep where
  | more (r : RxRecord)
  | complete (r : RxRecord)
  | tooLong (r : RxRecord)
  deriving DecidableEq, Repr

/-- The character is stored in the next position after ADDR: CTRL, LEN, payload, the two CHECK characters.  A LEN above 64 ends the
reception at once, and the second CHECK character completes the frame (R11, R80). -/
def RxRecord.store (r : RxRecord) (v : Byte) : RxStep :=
  match r.ctrl with
  | none => .more { r with ctrl := some v }
  | some _ =>
    match r.len with
    | none => if 64 < v.toNat then .tooLong { r with len := some v } else .more { r with len := some v }
    | some n =>
      if r.payload.length < n.toNat then .more { r with payload := r.payload ++ [v] }
      else
        let r' := { r with check := r.check ++ [v] }
        if r'.check.length < 2 then .more r' else .complete r'

end Sys2Proof.Machine
end

