-- ==== Sys2Proof/Machine/Records.lean ====
section
/-! DEFINITION. The records the device writes: the composing of completion records of every kind, their 16-byte layout, their urgency, and
the station and line reports (sections 11.3, 11.4, R101 to R104, R115, R118, R143, R154, R170, R181). -/

namespace Sys2Proof.Machine

/-! ## The layout of a completion record (section 11.3, R181) -/

/-- Byte 2 or byte 4 of a completion record: two four-bit fields, the first in bits 0 to 3. -/
def nibbles (lo hi : Nat) : Byte := (BitVec.ofNat 4 hi : BitVec 4) ++ (BitVec.ofNat 4 lo : BitVec 4)

/-- Bytes 8 to 14 of a record: the low 56 bits of the buffer address of a SCAN_DATA record, and detail, result value and zeros in every
other (R181). -/
def CompRecord.tailBytes (r : CompRecord) : List Byte :=
  match r.kind with
  | .scanData => (addrBytes (r.buffer.setWidth 64)).take 7
  | _ => [r.detail] ++ halfBytes r.result ++ List.replicate 4 0

/-- The 16 bytes of a completion record with its pass flag in bit 0 of byte 15 (section 11.3). -/
def CompRecord.bytes (r : CompRecord) (pass : Bool) : List Byte :=
  halfBytes r.tag
    ++ [nibbles r.kind.code.toNat (stationStateCode r.state).toNat, r.status.code, nibbles r.source r.attempts, r.addr,
        BitVec.ofNat 8 r.respLen, BitVec.ofNat 8 r.busy]
    ++ r.tailBytes ++ [flagByte pass]

/-- A record is urgent: a TXN or ADMIN with status other than OK, a SCAN_DATA with HOST_WRITE_ERROR, and every notice (R143). -/
def CompRecord.urgent (r : CompRecord) : Bool :=
  match r.kind with
  | .txn => r.status != .ok
  | .admin => r.status != .ok
  | .scanData => r.status == .hostWriteError
  | .stationNotice => true
  | .lineNotice => true

/-! ## Composing (R101 to R104, R115, R118, R154) -/

/-- The TXN record of a slot in FINISHING, composed from the slot, its outcome and the station entry as it stands (R60, R101 to R104).
The busy count is reported up to 255 (R102).
DESIGN CHOICE, unsafe: notes/assumptions/46.md. -/
def State.txnRecord (s : State) (l : LineId) (x : Slot) : CompRecord :=
  let o := x.outcome.getD ⟨.ok, .none, 0, 0⟩
  { kind := .txn
    tag := x.sub.tag
    state := s.keyedState l x.addr
    status := o.status
    source := x.ring.val
    attempts := x.attempts
    addr := x.sub.addr
    respLen := o.respLen
    busy := min x.busy 255
    detail := o.detail.code
    result := BitVec.ofNat 16 o.result
    buffer := 0 }

/-- The station entry a station command's record names, by key or by index (R154). -/
def State.adminStation (s : State) (bs : List Byte) : Option Station :=
  let code := (byteAt bs 2).toNat
  if code = 0x1C ∨ code = 0x1D ∨ code = 0x1E then
    (lineOf (byteAt bs 8)).bind fun l => s.keyed l (byteAt bs 9).toNat
  else if code = 0x1F then (entryOf (byteAt bs 8)).bind s.station
  else none

/-- The station address of an ADMIN record: the address named by the station commands with a key, the entry's address for STATION_QUERY,
0 otherwise (R154). -/
def State.adminAddr (s : State) (bs : List Byte) : Byte :=
  let code := (byteAt bs 2).toNat
  if code = 0x1C ∨ code = 0x1D ∨ code = 0x1E then byteAt bs 9
  else if code = 0x1F then
    match s.adminStation bs with
    | some x => BitVec.ofNat 8 x.addr
    | none => 0
  else 0

/-- The ADMIN record of the command in progress, composed when its write begins (R154). -/
def State.adminRecord (s : State) (c : AdminCommand) : CompRecord :=
  let r := c.result.getD (.ok, 0)
  { kind := .admin
    tag := halfAt c.record 0
    state := (s.adminStation c.record).map (·.state)
    status := r.1
    source := 0
    attempts := 0
    addr := s.adminAddr c.record
    respLen := 0
    busy := 0
    detail := 0
    result := BitVec.ofNat 16 r.2
    buffer := 0 }

/-- The SCAN_DATA record of a delivery (R115); its station state is the one held since the composing. -/
def scanDataRecord (l : LineId) (d : Delivery) : CompRecord :=
  { kind := .scanData
    tag := BitVec.ofNat 16 d.entry.val
    state := d.state
    status := d.status.getD .ok
    source := l.val
    attempts := 1
    addr := BitVec.ofNat 8 d.addr
    respLen := d.payload.length
    busy := 0
    detail := 0
    result := 0
    buffer := (d.buffer.getD 0).setWidth 56 }

/-- The STATION_NOTICE of an entry as it stands at the take (R32, R118). -/
def stationNoticeRecord (e : EntryId) (x : Station) : CompRecord :=
  { kind := .stationNotice
    tag := BitVec.ofNat 16 e.val
    state := some x.state
    status := .ok
    source := x.line.val
    attempts := 0
    addr := BitVec.ofNat 8 x.addr
    respLen := 0
    busy := 0
    detail := 0
    result := BitVec.ofNat 16 x.changes
    buffer := 0 }

/-- The LINE_NOTICE of a line: its run state and last fault cause at the take (R87, R118). -/
def lineNoticeRecord (l : LineId) (x : Line) : CompRecord :=
  { kind := .lineNotice
    tag := 0
    state := none
    status := .ok
    source := l.val
    attempts := 0
    addr := 0
    respLen := 0
    busy := 0
    detail := lineFaultCode x.lastFault
    result := x.run.code.setWidth 16
    buffer := 0 }

/-- The record a writer writes, composed at the start of its write; none where the writer has nothing to write (R60, R115, R117, R154). -/
def State.recordOf (s : State) : Writer → Option CompRecord
  | .slot l i => (s.slot l i).map (s.txnRecord l)
  | .admin => s.admin.command.map s.adminRecord
  | .scanner l => (s.line l).scanner.delivery.map (scanDataRecord l)
  | .notice l => (s.line l).notice.map (·.record)

/-! ## Reports (section 11.4, R36, R170) -/

/-- Bit `k` of a flags byte. -/
def bitAt (k : Nat) (b : Bool) : Byte := if b then BitVec.twoPow 8 k else 0

/-- The milliseconds from `now` until `t`, 0 when `t` has passed. -/
def msUntil (now t : Nat) : Nat := t - now

/-- The 32 bytes of a station report composed at device time `now` ms (section 11.4, R36). -/
def stationReport (now : Nat) (e : EntryId) (x : Station) : List Byte :=
  [BitVec.ofNat 8 e.val, BitVec.ofNat 8 x.line.val, BitVec.ofNat 8 x.addr, stationStateCode (some x.state),
   bitAt 0 x.toggle ||| bitAt 1 x.syncNeeded ||| bitAt 2 x.redelivery ||| bitAt 3 x.noticePending,
   BitVec.ofNat 8 x.failureCount, BitVec.ofNat 8 x.changes, lastKindCode x.lastKind]
    ++ leBytes 2 x.scanPeriod
    ++ leBytes 2 (match x.holdUntil with
        | some t => msUntil now t
        | none => 0)
    ++ leBytes 2 (msUntil now x.nextDue)
    ++ leBytes 2 0 ++ leBytes 4 x.exchanges ++ leBytes 2 x.failures ++ leBytes 2 x.busy ++ leBytes 2 x.redeliveries
    ++ leBytes 2 x.losses ++ leBytes 4 0

/-- Bytes 12 to 31 of part 0 of a line report: the configuration record, or zeros (section 11.4). -/
def configReport : Option LineConfig → List Byte
  | none => List.replicate 20 0
  | some c =>
    [c.mode.code, BitVec.ofNat 8 c.rate, c.parity.code, BitVec.ofNat 8 c.stopBits, BitVec.ofNat 8 c.lead,
     BitVec.ofNat 8 c.gapLimit, BitVec.ofNat 8 c.settle, BitVec.ofNat 8 c.suspectAfter, BitVec.ofNat 8 c.offlineAfter,
     BitVec.ofNat 8 c.busyLimit, noticeRingCode c.noticeRing, 0]
      ++ leBytes 2 c.respTimeout ++ leBytes 2 c.busyHoldOff ++ leBytes 2 c.probeInterval ++ leBytes 2 0

/-- The number of non-FREE slots of a line. -/
def Line.usedSlots (x : Line) : Nat := (allFin fun i => (x.slot i).isSome).length

/-- The 32 bytes of one part of a line report (section 11.4, R170). -/
def lineReport (l : LineId) (x : Line) (part : Nat) : List Byte :=
  let n := x.counters
  match part with
  | 0 =>
    [BitVec.ofNat 8 l.val, 0, x.run.code, lineFaultCode x.faultCause, lineFaultCode x.lastFault, phaseCode x.phase,
     BitVec.ofNat 8 x.conflictCount, bitAt 0 x.linePending ||| bitAt 1 x.config.isSome,
     BitVec.ofNat 8 x.noticeQueue.length, BitVec.ofNat 8 x.usedSlots, 0, 0] ++ configReport x.config
  | 1 =>
    leBytes 4 n.attempts ++ leBytes 4 n.delivered ++ leBytes 4 n.busy ++ leBytes 4 n.timeouts
      ++ leBytes 4 n.check ++ leBytes 4 n.parity ++ leBytes 4 n.framing ++ leBytes 4 n.truncated
  | _ =>
    leBytes 4 n.toggle ++ leBytes 4 n.protocol ++ leBytes 4 n.conflict ++ leBytes 4 n.stray
      ++ leBytes 4 n.late ++ leBytes 4 n.scanStarves ++ leBytes 4 n.poolStarves ++ leBytes 4 0

end Sys2Proof.Machine
end

