-- ==== Sys2Proof/Machine/Slots.lean ====
section
/-! DEFINITION. The slot table of a line: finishing, readiness and deferral, order within one (ring, station), the requests for completion
writes, placement of a taken record, payload and data transfers (chapters 3 and 5). -/

namespace Sys2Proof.Machine

/-! ## Deciding an outcome -/

/-- The slot goes to FINISHING with a decided outcome (R60). -/
def Slot.finish (status : Status) (detail : Detail) (respLen result : Nat) (x : Slot) : Slot :=
  { x with state := .finishing, outcome := some ⟨status, detail, respLen, result⟩ }

/-- The slot goes to FINISHING with a status, detail none, response length 0 and result value 0 (R102, R103). -/
def Slot.finishPlain (status : Status) (x : Slot) : Slot := x.finish status .none 0 0

/-- An event that ends waiting slots reaches the slot: in LOADING it decides the outcome for the end of the read, unless an earlier event
has; in WAITING, READY or DEFERRED the slot completes; ACTIVE, STORING and FINISHING are left (R46, R61). -/
def Slot.cutOff (status : Status) (x : Slot) : Slot :=
  match x.state with
  | .loading => { x with decided := x.decided <|> some status }
  | .waiting => x.finishPlain status
  | .ready => x.finishPlain status
  | .deferred => x.finishPlain status
  | .active => x
  | .storing => x
  | .finishing => x

/-! ## Readiness and deferral (R45 to R49, R166) -/

/-- The line is in STOPPING by a graceful LINE_STOP or waits in it for its slots (R68, R166). -/
def Line.gracefulStop (x : Line) : Bool := x.run == .stopping && !x.abortStop

/-- What a slot becomes that would enter READY: DEFERRED while its station is held off or has redelivery pending (R49), but ABORTED where a
graceful LINE_STOP waits and redelivery is pending (R166). -/
def Slot.enterReady (graceful : Bool) (station : Option Station) (x : Slot) : Slot :=
  match station with
  | none => { x with state := .ready }
  | some st =>
    if graceful && st.redelivery then x.finishPlain .aborted
    else if st.blocked then { x with state := .deferred }
    else { x with state := .ready }

/-- Slot `i` enters READY, or what R49 and R166 put in its place. -/
def State.enterReady (s : State) (l : LineId) (i : SlotId) : State :=
  match s.slot l i with
  | none => s
  | some x => s.modSlot l i (·.enterReady (s.line l).gracefulStop (s.keyed l x.addr))

/-- Every READY slot for the station at address `a` becomes DEFERRED, or ABORTED under R166: its station has become held off or
redelivery-pending (R49). -/
def State.deferReady (s : State) (l : LineId) (a : Nat) : State :=
  s.modLine l fun x =>
    x.mapSlots fun y =>
      if y.state = .ready ∧ y.addr = a then y.enterReady x.gracefulStop (s.keyed l a) else y

/-- Every DEFERRED slot for the station at address `a` returns to READY when the station is neither held off nor redelivery-pending
(R28, R30, R49). -/
def State.releaseDeferred (s : State) (l : LineId) (a : Nat) : State :=
  if s.addrBlocked l a then s
  else s.modLine l fun x =>
    x.mapSlots fun y => if y.state = .deferred ∧ y.addr = a then { y with state := .ready } else y

/-- At a graceful LINE_STOP every slot of the line that is DEFERRED for a station with redelivery pending completes ABORTED (R166). -/
def State.abortRedeliveryDeferred (s : State) (l : LineId) : State :=
  s.modLine l fun x =>
    x.mapSlots fun y =>
      match s.keyed l y.addr with
      | some st => if y.state = .deferred ∧ st.redelivery then y.finishPlain .aborted else y
      | none => y

/-! ## Order within one (ring, station) (R48, R60) -/

/-- Slot `j` is older than slot `x` and holds a record of the same source ring with the same station address (R48). -/
def Line.olderOfPair (ln : Line) (x : Slot) (j : SlotId) : Bool :=
  match ln.slot j with
  | some y => y.ring == x.ring && y.addr == x.addr && decide (y.age < x.age)
  | none => false

/-- Some older non-FREE slot holds a record of the same ring and station (R48, R60). -/
def Line.behindOlder (ln : Line) (x : Slot) : Bool := (List.finRange 8).any (ln.olderOfPair x)

/-- The older of two slots of a line. -/
def Line.olderSlot (ln : Line) (best : Option SlotId) (i : SlotId) : Option SlotId :=
  match best, ln.slot i with
  | none, some _ => some i
  | some b, some x =>
    match ln.slot b with
    | some y => if x.age < y.age then some i else some b
    | none => some i
  | b, none => b

/-- The oldest non-FREE slot among those given. -/
def Line.oldest (ln : Line) (is : List SlotId) : Option SlotId := is.foldl ln.olderSlot none

/-! ## Requests for completion writes (R60) -/

/-- Slot `i` is in FINISHING and free to write: no older slot of its (ring, station) is non-FREE (R60). -/
def Line.mayWrite (ln : Line) (i : SlotId) : Bool :=
  match ln.slot i with
  | some x => x.state == .finishing && !ln.behindOlder x
  | none => false

/-- The slot whose completion the Line Engine writes next: the oldest FINISHING slot free to write, when none is being written (R60). -/
def Line.nextTxn (ln : Line) : Option SlotId :=
  match ln.txnWriter with
  | some _ => none
  | none => ln.oldest (allFin ln.mayWrite)

/-- The completion ring of a slot's source ring (R130). -/
def State.slotCRing (s : State) (x : Slot) : Option CRingId := (s.ring x.ring).map (·.cring)

/-- The Line Engine requests the completion write of its next slot, if it has one (R60). -/
def State.requestTxn (s : State) (l : LineId) : State :=
  match (s.line l).nextTxn with
  | none => s
  | some i =>
    match (s.slot l i).bind s.slotCRing with
    | none => s
    | some r => (s.modLine l fun x => { x with txnWriter := some i }).requestWrite r (.slot l i)

/-! ## Payload reads and data writes (R46, R59, R91, R96 to R98) -/

/-- The payload read of a slot in LOADING has ended without error: its held payload is the params followed by the out length buffer bytes,
and it moves on to WAITING with FENCE and otherwise enters READY; an outcome decided during the read stands instead (R46, R90). -/
def State.payloadLoaded (s : State) (l : LineId) (i : SlotId) (bytes : List Byte) : State :=
  match s.slot l i with
  | none => s
  | some x =>
    match x.decided with
    | some st => s.modSlot l i (·.finishPlain st)
    | none =>
      let r := x.sub
      let s := s.modSlot l i fun y =>
        { y with payload := r.params.take r.paramCount.toNat ++ fitBytes r.outLen.toNat bytes }
      if r.fence then s.modSlot l i fun y => { y with state := .waiting } else s.enterReady l i

/-- The payload read of a slot in LOADING has ended with an error: HOST_READ_ERROR, unless an outcome was decided during the read; the held
payload is discarded (R46, R98). -/
def State.payloadFailed (s : State) (l : LineId) (i : SlotId) : State :=
  s.modSlot l i fun y => { y with payload := [] }.finishPlain (y.decided.getD .hostReadError)

/-- A slot enters LOADING and its payload read begins.  An empty range issues no access and ends without error, and a range above the top
of the address space ends at once with an error (R46, R91). -/
def State.beginLoading (s : State) (l : LineId) (i : SlotId) : State :=
  match s.slot l i with
  | none => s
  | some x =>
    let s := s.modSlot l i fun y => { y with state := .loading }
    if x.sub.outLen = 0 then s.payloadLoaded l i []
    else if rangeOk x.sub.buf x.sub.outLen.toNat then s
    else s.payloadFailed l i

/-- The detail of a delivered completion: SYNCED when the delivered attempt was a sync request (R54, R103). -/
def Slot.deliveredDetail (x : Slot) : Detail := if x.syncAttempt then .synced else .none

/-- The number of response bytes written: the lesser of LEN and the in limit (R59, R96). -/
def Slot.storeCount (x : Slot) : Nat := min x.response.length x.sub.inLimit.toNat

/-- The data write of a slot in STORING has ended without error: OK, or OVERLENGTH when LEN is above the in limit (R59, R96). -/
def Slot.stored (x : Slot) : Slot :=
  x.finish (if x.sub.inLimit.toNat < x.response.length then .overlength else .ok) x.deliveredDetail
    x.response.length x.storeCount

/-- The data write of a slot in STORING has ended with an error: HOST_WRITE_ERROR with the true LEN (R59, R97). -/
def Slot.storeFailed (x : Slot) : Slot := x.finish .hostWriteError x.deliveredDetail x.response.length 0

/-- A slot enters STORING with a delivered DATA response, and its data write begins.  A range above the top of the address space ends at
once with an error (R59, R91). -/
def Slot.beginStoring (payload : List Byte) (x : Slot) : Slot :=
  let y := { x with state := .storing, response := payload }
  if rangeOk y.sub.buf y.storeCount then y else y.storeFailed

end Sys2Proof.Machine
end

