-- ==== Sys2Proof/Machine/Stations.lean ====
section
/-! DEFINITION. The station table: changes of state and notices, delivery, failure accounting, the move to OFFLINE, busy hold-off,
redelivery, abandonment and freeing (chapter 2). -/

namespace Sys2Proof.Machine

/-! ## Changes of state and notices (R31) -/

/-- The queue with an entry appended to its tail if it is not in it (R31). -/
def queueAppend (q : List EntryId) (e : EntryId) : List EntryId := if q.contains e then q else q ++ [e]

/-- Entry `e` changes to state `st`: notice-pending is set, changes-since-notice rises by 1 up to 255, and the entry joins its line's
notice queue if it is not in it (R31). -/
def State.changeState (s : State) (e : EntryId) (st : StationState) : State :=
  match s.station e with
  | none => s
  | some x =>
    (s.setStation e (some { x with state := st, noticePending := true, changes := satSucc 255 x.changes })).modLine x.line
      fun ln => { ln with noticeQueue := queueAppend ln.noticeQueue e }

/-- Entry `e` is freed: it leaves its line's notice queue without a notice, and its key no longer matches (R32, R34). -/
def State.freeEntry (s : State) (e : EntryId) : State :=
  match s.station e with
  | none => s
  | some x =>
    (s.setStation e none).modLine x.line fun ln => { ln with noticeQueue := ln.noticeQueue.filter (· ≠ e) }

/-! ## Values read from the line's configuration (R24, R27, R108) -/

/-- The configuration of an entry's line, read at the moment of the outcome (section 2.2). -/
def State.configOf (s : State) (x : Station) : Option LineConfig := (s.line x.line).config

/-- The probe interval of an entry's line, in ms (R108). -/
def State.probeOf (s : State) (x : Station) : Nat :=
  match s.configOf x with
  | some c => c.probeInterval
  | none => 0

/-- The busy hold-off of an entry's line, in ms (R27). -/
def State.holdOffOf (s : State) (x : Station) : Nat :=
  match s.configOf x with
  | some c => c.busyHoldOff
  | none => 0

/-! ## The move to OFFLINE (R25) -/

/-- What the move of its station to OFFLINE does to a slot: a waiting slot without FORCE completes STATION_OFFLINE, and a FORCE slot
DEFERRED for a redelivery that the move has cleared returns to READY unless the station is held off (R25, R49). -/
def Slot.stationOffline (heldOff : Bool) (x : Slot) : Slot :=
  if x.sub.force then
    if x.state = .deferred ∧ !heldOff then { x with state := .ready } else x
  else x.cutOff .stationOffline

/-- Entry `e` moves to OFFLINE, with every effect of R25; the slot whose attempt caused the move is ACTIVE and is left to its own
outcome handling. -/
def State.moveOffline (s : State) (e : EntryId) : State :=
  match s.station e with
  | none => s
  | some x =>
    let s := s.setStation e (some { x with
      syncNeeded := true
      redelivery := false
      losses := if x.redelivery then satSucc 65535 x.losses else x.losses
      nextDue := s.nowMs + s.probeOf x })
    let s := s.changeState e .offline
    s.modLine x.line fun ln =>
      ln.mapSlots fun y => if y.addr = x.addr then y.stationOffline x.holdUntil.isSome else y

/-! ## Delivery (R21 to R23, R30) -/

/-- Redelivery-pending of entry `e` is cleared by a delivered response: after a sync request the held message is counted lost, and the
DEFERRED slots return to READY provided the station is not held off (R30). -/
def State.clearRedelivery (s : State) (e : EntryId) (sync : Bool) : State :=
  match s.station e with
  | none => s
  | some x =>
    if x.redelivery then
      (s.setStation e (some { x with
        redelivery := false
        losses := if sync then satSucc 65535 x.losses else x.losses })).releaseDeferred x.line x.addr
    else s

/-- Entry `e` takes a delivered response to a request that carried `toggle`, a sync request or not: the toggle becomes the opposite,
sync-needed clears after a sync request, the failure count becomes 0, NEW, SUSPECT and OFFLINE move to ONLINE, an entry that leaves
OFFLINE is due a scan period from now, and redelivery-pending clears (R21, R22, R23, R108).
DESIGN CHOICE, unsafe: notes/assumptions/45.md. -/
def State.stationDelivered (s : State) (e : EntryId) (toggle sync : Bool) : State :=
  match s.station e with
  | none => s
  | some x =>
    let s := s.setStation e (some { x with
      toggle := !toggle
      syncNeeded := if sync then false else x.syncNeeded
      failureCount := 0
      nextDue := if x.state = .offline then s.nowMs + x.scanPeriod else x.nextDue })
    let s := if x.state = .online then s else s.changeState e .online
    s.clearRedelivery e sync

/-! ## Failure accounting (R24) -/

/-- The state to which a failure moves an entry with failure count `n`, none where it stays (R24 step 4). -/
def failureMove (c : LineConfig) (st : StationState) (n : Nat) : Option StationState :=
  match st with
  | .offline => none
  | .detaching => none
  | .new => if c.offlineAfter ≤ n then some .offline else none
  | .online => if c.offlineAfter ≤ n then some .offline else if c.suspectAfter ≤ n then some .suspect else none
  | .suspect => if c.offlineAfter ≤ n then some .offline else none

/-- Entry `e` runs failure accounting for a failed attempt (R24). -/
def State.failureAccounting (s : State) (e : EntryId) (cause : Cause) : State :=
  match s.station e with
  | none => s
  | some x =>
    let n := satSucc Config.failureCountMax x.failureCount
    let s := s.setStation e (some { x with
      failureCount := n
      failures := satSucc 65535 x.failures
      syncNeeded := if cause = .toggle then true else x.syncNeeded })
    match (s.configOf x).bind fun c => failureMove c x.state n with
    | none => s
    | some .offline => s.moveOffline e
    | some st => s.changeState e st

/-! ## Busy hold-off and redelivery (R27, R29) -/

/-- Entry `e` takes a BUSY response: hold-until is set, the busy counter rises, next due becomes the new hold-until, and its READY slots
become DEFERRED (R27, R49, R108). -/
def State.stationBusy (s : State) (e : EntryId) : State :=
  match s.station e with
  | none => s
  | some x =>
    let t := s.nowMs + s.holdOffOf x
    (s.setStation e (some { x with
      holdUntil := some t
      busy := satSucc 65535 x.busy
      nextDue := t
      lastKind := some .busy })).deferReady x.line x.addr

/-- Entry `e` takes a scan DATA response that found no pool buffer: redelivery-pending is set, the redeliveries counter rises, next due
becomes now, and its READY slots become DEFERRED (R29, R49, R108). -/
def State.stationRedelivery (s : State) (e : EntryId) : State :=
  match s.station e with
  | none => s
  | some x =>
    (s.setStation e (some { x with
      redelivery := true
      redeliveries := satSucc 65535 x.redeliveries
      nextDue := s.nowMs
      lastKind := some .data })).deferReady x.line x.addr

/-- The hold-off of entry `e` ends: hold-until becomes none, and the DEFERRED slots return to READY unless redelivery is pending (R28). -/
def State.endHoldOff (s : State) (e : EntryId) : State :=
  match s.station e with
  | none => s
  | some x => (s.setStation e (some { x with holdUntil := none })).releaseDeferred x.line x.addr

/-! ## Counters of an attempt that reached SETTLE (R35) -/

/-- The exchanges counter of the entry rises, and the last response kind records a response that passed check and legality (R35). -/
def Station.countExchange (kind : Option RespKind) (x : Station) : Station :=
  { x with
    exchanges := satSucc 4294967295 x.exchanges
    lastKind := kind <|> x.lastKind }

/-- An abandoned attempt to the station sets sync-needed (R26). -/
def Station.abandoned (x : Station) : Station := { x with syncNeeded := true }

/-- Every redelivery-pending station of every line becomes due at once: the pool has gone from no untaken entry to one or more
(R108, R127). -/
def State.poolRefilled (s : State) : State :=
  { s with stations := vmap (Option.map fun x => if x.redelivery then { x with nextDue := s.nowMs } else x) s.stations }

end Sys2Proof.Machine
end

