-- ==== Sys2Proof/Machine/Lines.lean ====
section
/-! DEFINITION. The Line Controller: run states, exchange phases, driver and SEL, quiet timers, the beginning of an exchange, the entry into
SETTLE, AWAITING and RECEIVING, abandonment, mass completion, the abort stop and the entry into FAULTED (chapter 4, R61). -/

namespace Sys2Proof.Machine

/-! ## Mode and receiver (R3, R5) -/

/-- The line has a configuration and it is async. -/
def Line.isAsync (x : Line) : Bool :=
  match x.config with
  | some c => c.mode == .async
  | none => false

/-- The line has a configuration and it is clocked. -/
def Line.isClocked (x : Line) : Bool :=
  match x.config with
  | some c => c.mode == .clocked
  | none => false

/-- The run state is one in which the async receiver runs: STARTING, RUNNING, STOPPING (R3, R84). -/
def Line.inService (x : Line) : Bool := x.run == .starting || x.run == .running || x.run == .stopping

/-- The async receiver of the line runs (R3). -/
def Line.receiverRuns (x : Line) : Bool := x.isAsync && x.inService

/-- RXD is at mark with no character in reception (R65, R83). -/
def Line.quietNow (x : Line) : Bool := x.pins.rxd == .mark && !x.inReception

/-! ## Quiet timers (R65, R83) -/

/-- The line has become quiet: in SETTLE the settle timer and in STARTING the start quiet timer starts from 0, where RXD is at mark with no
character in reception (R65, R83). -/
def Line.restartQuiet (now : Nat) (x : Line) : Line :=
  if x.quietNow then
    { x with timers := { x.timers with
        settle := if x.phase = some .settle then some now else x.timers.settle
        startQuiet := if x.run = .starting then some now else x.timers.startQuiet } }
  else x

/-- The timers that stop at a transition of RXD from mark to space: gap, settle and start quiet (R65, R80, R83).
DEDUCED, unsafe: notes/assumptions/17.md. -/
def Timers.stopOnSpace (t : Timers) : Timers := { t with gap := none, settle := none, startQuiet := none }

/-! ## Phases (R73 to R83) -/

/-- The next character of the request frame begins on TXD (R8, R76). -/
def Line.beginCharacter (x : Line) : Line :=
  match x.config, x.attempt with
  | some c, some a =>
    { x with pins := { x.pins with shifting := txBits c (byteAt a.frame x.sentPos) (frameMark x.sentPos) } }
  | _, _ => x

/-- LEAD ends: the phase becomes SENDING and the first character begins at once; on a clocked line SCLK runs (R6, R75). -/
def Line.beginSending (x : Line) : Line :=
  Line.beginCharacter { x with
    phase := some .sending
    timers := { x.timers with lead := none }
    pins := { x.pins with clocking := x.isClocked } }

/-- A grant moves the phase to LEAD: sent position 0, receive record empty, attempts counter up, DE on, SEL asserted on a clocked line, the
lead timer from 0; with lead time 0 SENDING begins at the grant (R6, R74, R75).  On a clocked line TXD rests at mark in LEAD, as on an async one.
DESIGN CHOICE, unsafe: notes/assumptions/50.md. -/
def Line.beginExchange (now : Nat) (a : Attempt) (x : Line) : Line :=
  let y := { x with
    phase := some .lead
    attempt := some a
    sentPos := 0
    echoes := 0
    conflict := false
    rx := .empty
    timeoutHeld := false
    fillers := 0
    counters := { x.counters with attempts := satSucc 4294967295 x.counters.attempts }
    timers := { x.timers with lead := some now }
    pins := { x.pins with de := true, sel := x.isClocked, clocking := false, shifting := [] } }
  match x.config with
  | some c => if c.lead = 0 then y.beginSending else y
  | none => y

/-- The entry into SETTLE: DE off, SEL deasserted, SCLK low, the exchange's timers stopped, the settle timer from 0 where the line is quiet
(on a clocked line in any case) and on an async line the settle limit timer from 0 (R6, R73, R83).
DEDUCED, unsafe: notes/assumptions/16.md. -/
def Line.enterSettle (now : Nat) (x : Line) : Line :=
  { x with
    phase := some .settle
    conflict := false
    timeoutHeld := false
    timers := { x.timers with
      lead := none
      response := none
      gap := none
      settle := if x.isClocked || x.quietNow then some now else none
      settleLimit := if x.isAsync then some now else none }
    pins := .quiet x.pins.rxd }

/-- Sending has ended without conflict for a request that is answered: DE off, AWAITING, the response timer from 0; on a clocked line SEL
stays asserted and the hunt begins with filler on TXD (R7, R78). -/
def Line.enterAwaiting (now : Nat) (x : Line) : Line :=
  { x with
    phase := some .awaiting
    fillers := 0
    timeoutHeld := false
    timers := { x.timers with response := some now }
    pins := { x.pins with de := false, shifting := if x.isClocked then List.replicate 8 true else [] } }

/-- The response's ADDR has been found: it is stored, the response timer stops, and on an async line the gap timer starts from 0
(R7, R79). -/
def Line.enterReceiving (now : Nat) (v : Byte) (x : Line) : Line :=
  { x with
    phase := some .receiving
    timeoutHeld := false
    rx := { x.rx with addr := some v }
    timers := { x.timers with response := none, gap := if x.isAsync then some now else none } }

/-- The settle time has been reached: the phase becomes IDLE (R83). -/
def Line.enterIdle (x : Line) : Line :=
  { x with phase := some .idle, timers := { x.timers with settle := none, settleLimit := none } }

/-! ## Run states (R63 to R72) -/

/-- The entry into STOPPED, whatever the way in: phase, attempt, sent position and receive record absent or empty, fault cause absent,
timers stopped, driver off, a character in reception discarded (R3, R63, R71). -/
def Line.enterStopped (x : Line) : Line :=
  { x with
    run := .stopped
    faultCause := none
    phase := none
    attempt := none
    sentPos := 0
    echoes := 0
    conflict := false
    abortStop := false
    rx := .empty
    timers := .stopped
    timeoutHeld := false
    fillers := 0
    inReception := false
    pins := .quiet x.pins.rxd }

/-- The entry into STARTING: fault cause absent, conflict count 0, the start limit timer from 0; on an async line the start quiet timer from
0 where RXD is at mark, on a clocked line the wait of one settle time (R64).
DEDUCED, unsafe: notes/assumptions/27.md. -/
def Line.enterStarting (now : Nat) (x : Line) : Line :=
  { x with
    run := .starting
    faultCause := none
    conflictCount := 0
    inReception := false
    timers := { Timers.stopped with
      startLimit := some now
      startQuiet := if x.isAsync && x.pins.rxd == .mark then some now else none
      settle := if x.isClocked then some now else none } }

/-- The entry into RUNNING from STARTING: the start timers stop, the phase becomes IDLE, and the Scanner claims again (R67, R119). -/
def Line.enterRunning (x : Line) : Line :=
  { x with
    run := .running
    phase := some .idle
    timers := { x.timers with startQuiet := none, startLimit := none, settle := none }
    scanner := { x.scanner with refused := false } }

/-- The line's own part of the entry into FAULTED: driver and outputs off at once, receiver stopped, timers stopped, phase absent, the
fault cause and the last fault cause, line-notice-pending set (R71, R87). -/
def Line.enterFaulted (cause : LineFault) (x : Line) : Line :=
  { x with
    run := .faulted
    faultCause := some cause
    lastFault := some cause
    phase := none
    attempt := none
    conflict := false
    abortStop := false
    timeoutHeld := false
    inReception := false
    linePending := true
    timers := .stopped
    pins := .quiet x.pins.rxd }

/-! ## Abandonment and mass completion (R26, R34, R61, R119) -/

/-- The Scanner's poll in hand, not yet granted or abandoned, is dropped: its reservation is returned and the Scanner goes to IDLE; a
delivery goes on (R109, R119). -/
def State.dropPoll (s : State) (l : LineId) : State :=
  let sc := (s.line l).scanner
  match sc.state, sc.reservation with
  | .holding, some r =>
    (s.modLine l fun x => { x with scanner := { sc with state := .idle, reservation := none, polled := none } }).returnReservation r
  | .polling, some r =>
    (s.modLine l fun x => { x with scanner := { sc with state := .idle, reservation := none, polled := none } }).returnReservation r
  | _, _ => s

/-- The station entry addressed by an abandoned attempt takes R26; where a line fault abandons it an entry in DETACHING is freed (R34). -/
def State.abandonStation (s : State) (l : LineId) (a : Nat) (free : Bool) : State :=
  match s.lookup l a with
  | none => s
  | some e =>
    let s := s.modStation e Station.abandoned
    if free && (s.keyedState l a == some .detaching) then s.freeEntry e else s

/-- The attempt in progress on the line is abandoned: a host slot's attempt count rises by 1 and the slot goes to FINISHING with the status
of the event, ahead of the line's other slots; the station entry takes R26 (R61).
DEDUCED, unsafe: notes/assumptions/15.md.  DESIGN CHOICE, unsafe (among the lines at the entry to DISABLING): notes/assumptions/48.md. -/
def State.abandonAttempt (s : State) (l : LineId) (status : Status) (free : Bool) : State :=
  match (s.line l).attempt with
  | none => s
  | some a =>
    let s := (s.modLine l fun x => { x with attempt := none }).abandonStation l a.addr free
    match a.requester with
    | .slot i => (s.modSlot l i fun y => { y with attempts := y.attempts + 1 }.finishPlain status).requestTxn l
    | .scanner => s

/-- Every slot and poll of the line takes an event that ends the line's work: the attempt in progress is abandoned, the Scanner's poll is
dropped, the waiting slots complete with the status, and a record read in progress is marked (R42, R46, R61, R119). -/
def State.endWork (s : State) (l : LineId) (status : Status) (free : Bool) : State :=
  ((s.abandonAttempt l status free).dropPoll l).modLine l fun x =>
    { x.mapSlots (·.cutOff status) with
      read := x.read.map fun r => { r with events := r.events ++ [.decided status] } }

/-- The line enters FAULTED with a cause (R71). -/
def State.faultLine (s : State) (l : LineId) (cause : LineFault) : State :=
  (s.endWork l .lineFault true).modLine l (·.enterFaulted cause)

/-- The line's work ends at once with ABORTED and the line comes to STOPPED: at once, or in SENDING at the end of the character on the line,
until which its run state is STOPPING (R69).
DEDUCED, unsafe: notes/assumptions/14.md. -/
def State.abortLine (s : State) (l : LineId) : State :=
  (s.endWork l .aborted false).modLine l fun x =>
    if x.phase = some .sending then { x with run := .stopping, abortStop := true, attempt := none } else x.enterStopped

/-- The DISABLING row of R72 and R61 for one line: a line in RUNNING or STOPPING stops as under LINE_STOP abort, every other line is STOPPED
at once, and its slots complete ABORTED. -/
def State.disableLine (s : State) (l : LineId) : State :=
  match (s.line l).run with
  | .running => s.abortLine l
  | .stopping => s.abortLine l
  | .stopped => (s.endWork l .aborted false).modLine l Line.enterStopped
  | .starting => (s.endWork l .aborted false).modLine l Line.enterStopped
  | .faulted => (s.endWork l .aborted false).modLine l Line.enterStopped

end Sys2Proof.Machine
end

