-- ==== Sys2Proof/Machine/Scan.lean ====
section
/-! DEFINITION. The Scanner, the pool ring and the notice writer: candidates, the choice of a station, the pool claim, the outcome of a scan
poll, deliveries and notices (chapter 6). -/

namespace Sys2Proof.Machine

/-! ## Membership and candidates (R107) -/

/-- The entry takes part in scanning (R107). -/
def Station.scanMember (x : Station) : Bool :=
  x.state != .detaching && (x.scanPeriod != 0 || x.state == .offline || x.redelivery)

/-- The pool ring holds at least one entry not yet taken (R107, R113). -/
def State.poolHolds (s : State) : Bool :=
  match s.pool with
  | some p => p.head != p.tail
  | none => false

/-- A host slot of the line that holds a record for the station is ACTIVE or STORING (R107 condition 4). -/
def Line.exchangesWith (ln : Line) (a : Nat) : Bool :=
  (List.finRange 8).any fun i =>
    match ln.slot i with
    | some y => y.addr == a && (y.state == .active || y.state == .storing)
    | none => false

/-- Entry `x` is a candidate for a scan poll on its line (R107). -/
def State.isCandidate (s : State) (x : Station) : Bool :=
  x.scanMember
  && (match s.configOf x with
      | some c => c.noticeRing.isSome
      | none => false)
  && decide (x.nextDue ≤ s.nowMs)
  && x.holdUntil.isNone
  && !(s.line x.line).exchangesWith x.addr
  && (!x.redelivery || s.poolHolds)

/-- Entry `e` is in use on line `l` and a candidate. -/
def State.candidateAt (s : State) (l : LineId) (e : EntryId) : Bool :=
  match s.station e with
  | some x => x.line == l && s.isCandidate x
  | none => false

/-- The better of two candidates: the earlier next due time, and the lower address between equal times (R110). -/
def State.betterCandidate (s : State) (best : Option EntryId) (e : EntryId) : Option EntryId :=
  match best with
  | none => some e
  | some b =>
    match s.station b, s.station e with
    | some y, some x =>
      if x.nextDue < y.nextDue ∨ (x.nextDue = y.nextDue ∧ x.addr < y.addr) then some e else some b
    | none, _ => some e
    | _, none => some b

/-- The station the Scanner of line `l` chooses, none when there is no candidate (R110). -/
def State.scanChoice (s : State) (l : LineId) : Option EntryId :=
  (allFin (s.candidateAt l)).foldl s.betterCandidate none

/-- A candidate exists on line `l` (R109). -/
def State.hasCandidate (s : State) (l : LineId) : Bool := (List.finRange 128).any (s.candidateAt l)

/-- The notice ring of a line's configuration. -/
def Line.noticeRing (x : Line) : Option CRingId := x.config.bind (·.noticeRing)

/-! ## The pool claim (R113) -/

/-- A claim on the pool: granted with the entry at the head, its index and its host address, and the head advances by one, when the pool is
ACTIVE and its head differs from its tail; refused otherwise (R113). -/
def State.poolClaim (s : State) : Option ((Nat × Addr) × State) :=
  match s.pool with
  | none => none
  | some p =>
    if p.head = p.tail then none
    else some ((p.head, p.entryAddr p.head), { s with pool := some { p with head := nextIndex (ringSize p.sizeCode) p.head } })

/-! ## The outcome of a scan poll (R108, R111) -/

/-- The Scanner of line `l` goes to IDLE and its reservation is returned (R111). -/
def State.endPoll (s : State) (l : LineId) : State :=
  let sc := (s.line l).scanner
  let s := s.modLine l fun x => { x with scanner := { sc with state := .idle, reservation := none, polled := none } }
  match sc.reservation with
  | some r => s.returnReservation r
  | none => s

/-- The next due time after a scan poll's outcome where no BUSY, redelivery, move to OFFLINE or leaving OFFLINE set it: a probe interval from
now for an entry that stays OFFLINE, a scan period from now otherwise (R108). -/
def State.scheduleNext (s : State) (e : EntryId) : State :=
  match s.station e with
  | none => s
  | some x =>
    s.setStation e (some { x with
      nextDue := s.nowMs + (if x.state = .offline then s.probeOf x else x.scanPeriod) })

/-- An entry in DETACHING takes the toggle change of a delivered response and no other effect, and is freed (R23, R34). -/
def State.freeDetaching (s : State) (e : EntryId) : State := s.freeEntry e

/-- The line's delivered responses counter rises (R88). -/
def Line.countDelivered (x : Line) : Line :=
  { x with counters := { x.counters with delivered := satSucc 4294967295 x.counters.delivered } }

/-- The line's busy responses counter rises (R88). -/
def Line.countBusy (x : Line) : Line :=
  { x with counters := { x.counters with busy := satSucc 4294967295 x.counters.busy } }

/-- The line's pool starves counter rises (R121). -/
def Line.countPoolStarve (x : Line) : Line :=
  { x with counters := { x.counters with poolStarves := satSucc 4294967295 x.counters.poolStarves } }

/-- The entry's part of a delivered scan response: R21 to R23 and the next due time, or R34 for an entry in DETACHING. -/
def State.scanDelivered (s : State) (l : LineId) (e : EntryId) (detaching : Bool) (a : Attempt) : State :=
  let s := s.modLine l Line.countDelivered
  if detaching then s.freeDetaching e else (s.stationDelivered e a.toggle a.sync).scheduleNext e

/-- The Scanner takes the outcome of its poll of entry `e`; `detaching` says that the entry is in DETACHING (R111). -/
def State.scanOutcome (s : State) (l : LineId) (e : EntryId) (detaching : Bool) (a : Attempt) (o : AttemptOutcome) : State :=
  match o with
  | .response .data _ payload =>
    match s.poolClaim with
    | some ((idx, entryAt), s) =>
      (s.modLine l fun x => { x with scanner := { x.scanner with
          state := .delivering
          polled := none
          delivery := some ⟨e, a.addr, idx, entryAt, payload, none, none, none⟩ } }).scanDelivered l e detaching a
    | none =>
      let s := s.modLine l Line.countPoolStarve
      (if detaching then s.freeDetaching e else s.stationRedelivery e).endPoll l
  | .response .busy _ _ =>
    let s := s.modLine l Line.countBusy
    (if detaching then s.freeDetaching e else s.stationBusy e).endPoll l
  | .response .done _ _ => (s.scanDelivered l e detaching a).endPoll l
  | .response .empty _ _ => (s.scanDelivered l e detaching a).endPoll l
  | .response .refused _ _ => (s.scanDelivered l e detaching a).endPoll l
  | .failure .conflict => (if detaching then s.freeDetaching e else s.scheduleNext e).endPoll l
  | .failure c => (if detaching then s.freeDetaching e else (s.failureAccounting e c).scheduleNext e).endPoll l
  | .sent => s.endPoll l

/-! ## Deliveries (R114, R115) -/

/-- The write of scan data has ended with a status: the SCAN_DATA record is composed and its write is requested of the ring of the
reservation (R105, R114 step 3, R115). -/
def State.deliveryDecided (s : State) (l : LineId) (d : Delivery) (status : Status) : State :=
  let d := { d with status := some status, state := s.keyedState l d.addr }
  let s := s.modLine l fun x => { x with scanner := { x.scanner with delivery := some d } }
  match (s.line l).scanner.reservation with
  | some r => s.requestWrite r (.scanner l)
  | none => s

/-- The pool entry of a delivery has been read: its buffer address is known and the data write begins.  A buffer address above 2^56 − 1 is
not written at all and ends the write at once with HOST_WRITE_ERROR (R114). -/
def State.deliveryAddressed (s : State) (l : LineId) (d : Delivery) (buffer : Addr) : State :=
  let d := { d with buffer := some buffer }
  if 2 ^ 56 ≤ buffer.toNat then s.deliveryDecided l d .hostWriteError
  else s.modLine l fun x => { x with scanner := { x.scanner with delivery := some d } }

/-! ## The notice writer (R117, R118) -/

/-- The line has a line notice or a station notice pending (R117). -/
def Line.noticeWaiting (x : Line) : Bool := x.linePending || !x.noticeQueue.isEmpty

/-- The notice writer of line `l` takes what it will report: the line notice if one is pending, otherwise the entry at the head of the notice
queue, whose changes-since-notice becomes 0 (R32, R87, R117, R118). -/
def State.takeNotice (s : State) (l : LineId) : Option (CompRecord × State) :=
  let x := s.line l
  if x.linePending then some (lineNoticeRecord l x, s.setLine l { x with linePending := false })
  else match x.noticeQueue with
  | [] => none
  | e :: rest =>
    match s.station e with
    | none => none
    | some st =>
      some (stationNoticeRecord e st,
        (s.setLine l { x with noticeQueue := rest }).setStation e (some { st with noticePending := false, changes := 0 }))

/-- The notice writer of line `l` claims a place in ring `r`, takes its notice and requests the record's write (R117). -/
def State.startNotice (s : State) (l : LineId) (r : CRingId) : State :=
  match s.takeNotice l with
  | none => s
  | some (rec, s) => ((s.reserve r).modLine l fun x => { x with notice := some ⟨r, rec⟩ }).requestWrite r (.notice l)

end Sys2Proof.Machine
end

