-- ==== Sys2Proof/Machine/Outcomes.lean ====
section
/-! DEFINITION. The outcome of an attempt: its counting, the slot's decision, the hand-off on entry to SETTLE and the conflict limit
(R53 to R58, R77, R82). -/

namespace Sys2Proof.Machine

/-- The failure counter of a cause rises by 1 (R88). -/
def Counters.countFailure (n : Counters) (c : Cause) : Counters :=
  let up := satSucc 4294967295
  match c with
  | .timeout => { n with timeouts := up n.timeouts }
  | .check => { n with check := up n.check }
  | .parity => { n with parity := up n.parity }
  | .framing => { n with framing := up n.framing }
  | .truncated => { n with truncated := up n.truncated }
  | .protocol => { n with protocol := up n.protocol }
  | .toggle => { n with toggle := up n.toggle }
  | .conflict => { n with conflict := up n.conflict }

/-- The counters of the hand-off: a failure rises by its cause (R82, R88). -/
def Line.countOutcome (o : AttemptOutcome) (x : Line) : Line :=
  match o with
  | .failure c => { x with counters := x.counters.countFailure c }
  | .response .. => x
  | .sent => x

/-! ## The slot's part (R53 to R58) -/

/-- Step 1 of R53: the attempt count rises unless the outcome is BUSY, and a failure records its cause. -/
def Slot.countAttempt (o : AttemptOutcome) (x : Slot) : Slot :=
  match o with
  | .response .busy _ _ => { x with busy := x.busy + 1 }
  | .failure c => { x with attempts := x.attempts + 1, lastCause := some c }
  | .response .. => { x with attempts := x.attempts + 1 }
  | .sent => { x with attempts := x.attempts + 1 }

/-- The status of a slot that has no attempts left: NO_RESPONSE for TIMEOUT and LINE_ERROR for any other cause (R56, R58). -/
def failStatus (c : Cause) : Status := if c = .timeout then .noResponse else .lineError

/-- The slot finishes with a status and a failure cause as its detail (R56, R103). -/
def Slot.finishCause (status : Status) (c : Cause) (x : Slot) : Slot := x.finish status (.cause c) 0 0

/-- A retry is left: the attempt count is below 1 plus the retry limit (R56, R57). -/
def Slot.retryLeft (x : Slot) : Bool := decide (x.attempts < 1 + x.sub.retry.toNat)

/-- What the slot's station is to its slots after the entry has taken the outcome. -/
structure SlotView where
  /-- a graceful LINE_STOP waits on the line (R166) -/
  graceful : Bool
  /-- the station entry, none for a broadcast -/
  station : Option Station
  /-- the entry moved to OFFLINE in this handling (R56 step 1) -/
  wentOffline : Bool
  /-- no retry: the last-attempt mark, or an entry in DETACHING (R58) -/
  noRetry : Bool
  /-- the busy limit of the line's configuration, read at this moment (R55) -/
  busyLimit : Nat

/-- Step 3 of R53: the slot, its attempt already counted, decides its next state under R54 to R58. -/
def Slot.decideOutcome (v : SlotView) (o : AttemptOutcome) (x : Slot) : Slot :=
  match o with
  | .response .data _ payload => x.beginStoring payload
  | .response .refused len _ => x.finish .refused x.deliveredDetail len 0
  | .response .done len _ => x.finish .ok x.deliveredDetail len 0
  | .response .empty len _ => x.finish .ok x.deliveredDetail len 0
  | .response .busy _ _ =>
    if v.noRetry || decide (v.busyLimit < x.busy) then x.finishPlain .stationBusy
    else x.enterReady v.graceful v.station
  | .failure c =>
    if v.noRetry then x.finishCause (failStatus c) c
    else if v.wentOffline && !x.sub.force then x.finishCause .stationOffline c
    else if x.retryLeft then x.enterReady v.graceful v.station
    else x.finishCause (failStatus c) c
  | .sent => x.finishPlain .ok

/-- Step 2 of R53: the station entry of a host slot's attempt takes the outcome under R23, R24 or R27, or R34 when it is in DETACHING. -/
def State.entryOutcome (s : State) (e : EntryId) (detaching : Bool) (a : Attempt) (o : AttemptOutcome) : State :=
  if detaching then s.freeDetaching e
  else match o with
  | .response .busy _ _ => s.stationBusy e
  | .response .. => s.stationDelivered e a.toggle a.sync
  | .failure .conflict => s
  | .failure c => s.failureAccounting e c
  | .sent => s

/-- The delivered and busy counters of the line for a host slot's outcome (R82, R88). -/
def Line.countHostResponse (o : AttemptOutcome) (x : Line) : Line :=
  match o with
  | .response .busy _ _ => x.countBusy
  | .response .. => x.countDelivered
  | .failure _ => x
  | .sent => x

/-- The ACTIVE slot `i` takes the outcome of its attempt: attempt count, station entry, slot (R53). -/
def State.slotOutcome (s : State) (l : LineId) (i : SlotId) (a : Attempt) (o : AttemptOutcome) : State :=
  let s := s.modSlot l i (·.countAttempt o)
  let s := s.modLine l (Line.countHostResponse o)
  let before := s.keyedState l a.addr
  let detaching := before == some .detaching
  let s := match s.lookup l a.addr with
    | some e => s.entryOutcome e detaching a o
    | none => s
  let after := s.keyedState l a.addr
  let v : SlotView :=
    { graceful := (s.line l).gracefulStop
      station := s.keyed l a.addr
      wentOffline := after == some .offline && before != some .offline
      noRetry := detaching || (match s.slot l i with
        | some x => x.lastAttempt
        | none => false)
      busyLimit := match (s.line l).config with
        | some c => c.busyLimit
        | none => 0 }
  s.modSlot l i (·.decideOutcome v o)

/-! ## The hand-off (R77, R82) -/

/-- The counters of the station entry for an attempt that has reached SETTLE (R35). -/
def State.countExchange (s : State) (l : LineId) (a : Nat) (kind : Option RespKind) : State :=
  match s.lookup l a with
  | some e => s.modStation e (Station.countExchange kind)
  | none => s

/-- The outcome is handed to the requester of the attempt (R82). -/
def State.handToRequester (s : State) (l : LineId) (a : Attempt) (o : AttemptOutcome) : State :=
  match a.requester with
  | .slot i => s.slotOutcome l i a o
  | .scanner =>
    match (s.line l).scanner.polled with
    | some (e, _) => s.scanOutcome l e ((s.station e).map (·.state) == some .detaching) a o
    | none => s

/-- The conflict count after an outcome: CONFLICT raises it by 1 and any other outcome sets it to 0 (R77). -/
def Line.countConflict (o : AttemptOutcome) (x : Line) : Line :=
  { x with conflictCount := if o = .failure .conflict then x.conflictCount + 1 else 0 }

/-- The attempt in progress ends with an outcome: the phase moves to SETTLE, the outcome is handed on, the attempt becomes absent, and the
third consecutive CONFLICT faults the line without running the settle (R53, R77, R82).  `kind` is the kind of a response that passed check and
legality (R35). -/
def State.endAttempt (s : State) (l : LineId) (o : AttemptOutcome) (kind : Option RespKind) : State :=
  match (s.line l).attempt with
  | none => s.modLine l (Line.enterSettle s.nowUs)
  | some a =>
    let s := s.modLine l fun x => { (x.enterSettle s.nowUs).countOutcome o with attempt := none }
    let s := s.countExchange l a.addr kind
    let s := s.handToRequester l a o
    let s := s.modLine l (Line.countConflict o)
    if Config.conflictLimit ≤ (s.line l).conflictCount then s.faultLine l .conflict else s

/-- The attempt in progress fails with a cause. -/
def State.failAttempt (s : State) (l : LineId) (c : Cause) : State := s.endAttempt l (.failure c) none

end Sys2Proof.Machine
end

