-- ==== Sys2Proof/Machine/Device.lean ====
section
/-! DEFINITION. The device as a whole: bootstrap loading, the orderly disable, the device fault, reaching OFF, the resets, and the decision
of an admin command's status (chapter 10, R155). -/

namespace Sys2Proof.Machine

/-! ## The Admin Processor's decision (R152, R154, R155) -/

/-- The status and result value of the command in progress are decided, and its completion is to be written (R152 step 4). -/
def State.adminDecide (s : State) (status : Status) (value : Nat) : State :=
  { s with admin :=
      { phase := .completing
        command := s.admin.command.map fun c => { c with wait := none, result := some (status, value) }
        requested := false
        read := none } }

/-- The result value with which a waiting command completes: the abandoned count of a RING_DELETE, the entry index of a STATION_DETACH, 0
otherwise (R154). -/
def AdminCommand.waitValue (c : AdminCommand) : Nat :=
  match c.wait with
  | some (.ringDelete _) => c.abandoned
  | some (.detach e) => e.val
  | some (.lineStart _) => 0
  | some (.lineStop _) => 0
  | some (.lineAbort _) => 0
  | none => 0

/-- A waiting admin command completes ABORTED (R155).
DEDUCED, unsafe: notes/assumptions/21.md. -/
def State.abortAdmin (s : State) : State :=
  match s.admin.phase, s.admin.command with
  | .waiting, some c => s.adminDecide .aborted c.waitValue
  | _, _ => s

/-! ## Accesses cut off (R62, R96, R138, R176, R178) -/

/-- The data write of a slot in STORING is cut off: each byte of its range is old or new (R96, R178). -/
def State.cutStore (s : State) (x : Slot) : State :=
  if x.state = .storing then s.hostWriteCut x.sub.buf.toNat (x.response.take x.storeCount) else s

/-- The data writes of a line's slots in STORING and of its Scanner's delivery are cut off (R96, R114, R178). -/
def State.cutLine (s : State) (l : LineId) : State :=
  let s := (List.finRange 8).foldl (fun s i => match s.slot l i with
    | some x => s.cutStore x
    | none => s) s
  match (s.line l).scanner.delivery with
  | some d =>
    match d.buffer, d.status with
    | some b, none => s.hostWriteCut b.toNat d.payload
    | _, _ => s
  | none => s

/-- The report write of an admin command in REPORTING is cut off (R178). -/
def State.cutReport (s : State) : State :=
  match s.admin.phase, s.admin.command with
  | .reporting, some c => s.hostWriteCut (addrAt c.record 16).toNat c.report
  | _, _ => s

/-- A completion write in progress in ring `r` is cut off: its bytes 0 to 14 have been written and its pass flag has not (R62, R138). -/
def State.cutCompletion (s : State) (r : CRingId) : State :=
  match s.cring r with
  | some c =>
    match c.write with
    | some w => s.hostWrite (c.base.toNat + 16 * w.place) (w.bytes.take 15)
    | none => s
  | none => s

/-- Every write in progress is cut off (R176, R178). -/
def State.cutWrites (s : State) : State :=
  let s := (List.finRange 8).foldl State.cutLine s
  let s := s.cutReport
  (List.finRange 4).foldl State.cutCompletion s

/-! ## The device fault (R176) -/

/-- The entry to FAULTED for one line's part: the line is STOPPED at once, every slot FREE, reads, writes and the Scanner stopped, ages and
last-served pointers started again; configuration, last fault cause, line-notice-pending, counters and notice queue are held
(R38, R62, R72, R120).
DEDUCED, unsafe: notes/assumptions/23.md. -/
def Line.deviceFaulted (x : Line) : Line :=
  { x.enterStopped with
    slots := Vector.replicate 8 none
    nextAge := 0
    intakeLast := Vector.replicate 4 none
    arbLast := Vector.replicate 4 none
    read := none
    txnWriter := none
    scanner := .reset
    notice := none }

/-- The station entry of the line's attempt in progress takes R26, for a device fault. -/
def State.abandonForFault (s : State) (l : LineId) : State :=
  match (s.line l).attempt with
  | some a => s.abandonStation l a.addr false
  | none => s

/-- A completion ring at the entry to FAULTED: its write stops and its coalescing timer stops; its counts, reservations included, are held
(R145, R151).
DEDUCED, unsafe: notes/assumptions/24.md. -/
def CRing.deviceFaulted (c : CRing) : CRing := { c with write := none, waiting := [], timer := none }

/-- The Admin Processor at the entry to FAULTED: a waiting command stays WAITING, every other transfer stops with nothing in hand (R155,
notes/assumptions/7.md). -/
def Admin.deviceFaulted (a : Admin) : Admin :=
  match a.phase with
  | .waiting => a
  | .idle => .reset
  | .reading => .reset
  | .reporting => .reset
  | .completing => .reset

/-- The device enters FAULTED with a fault code: FAULT is set, every access stops, lines, slots, Scanners and notice writers stop, and the
contexts, the station table and the configurations are held (R176). -/
def State.deviceFault (s : State) (code : FaultCode) : State :=
  let s := s.cutWrites
  let s := (List.finRange 8).foldl State.abandonForFault s
  let s := s.setCause faultBit
  { s with
    device := .faulted
    faultCode := code
    loadAddr := none
    lines := vmap Line.deviceFaulted s.lines
    crings := vmap (Option.map CRing.deviceFaulted) s.crings
    admin := s.admin.deviceFaulted }

/-! ## Reaching OFF (R171, R175, R177) -/

/-- The cause bits at OFF: C0 to C3 clear, FAULT and POSTERR kept (R148). -/
def causesAtOff (c : BitVec 6) : BitVec 6 := c &&& 0x30#6

/-- The part is OFF with a reset cause: every context, the station table, the notice queues, the Scanners, the configurations and the
counters take their values at OFF; ENABLE, INT_ENABLE, the bootstrap address, the fault code, FAULT, POSTERR and device time are kept
(R171, R175, R177).
DEDUCED, unsafe: notes/assumptions/39.md. -/
def State.reachOff (s : State) (cause : ResetCause) : State :=
  { s with
    device := .off
    resetCause := cause
    postError := .none
    intcause := causesAtOff s.intcause
    loadAddr := none
    rings := Vector.replicate 16 none
    pool := none
    crings := Vector.replicate 4 none
    admin := .reset
    lines := vmap (fun x => Line.reset x.pins.rxd) s.lines
    stations := Vector.replicate 128 none }

/-! ## Bootstrap load (R173) -/

/-- The bootstrap address is usable: a multiple of 32 whose last byte lies at or below 2^64 − 1 (R173 step 1). -/
def bootAddrOk (a : Addr) : Bool := a.toNat % 32 == 0 && decide (a.toNat + 32 ≤ 2 ^ 64)

/-- The entry to LOADING: the fault code becomes NONE and the bootstrap address is fixed; an unusable address faults the part with
BAD_BOOT and no read is issued (R173). -/
def State.beginLoad (s : State) : State :=
  let s := { s with device := .loading, faultCode := .none, loadAddr := some s.bootAddr }
  if bootAddrOk s.bootAddr then s else s.deviceFault .badBoot

/-- A submission ring context at its creation (R122). -/
def newRing (base : Addr) (sizeCode : Nat) (line : Option LineId) (cls : Option ClassId) (cring : CRingId) : SubRing :=
  { state := .active, base := base, sizeCode := sizeCode, head := 0, tail := 0, line := line, cls := cls, cring := cring,
    inFlight := 0, fenced := false }

/-- A completion ring context at its creation (R136). -/
def newCRing (base : Addr) (sizeCode threshold time : Nat) (intEnable : Bool) : CRing :=
  { base := base, sizeCode := sizeCode, tail := 0, head := 0, written := 0, reserved := 0, pass := true,
    threshold := threshold, time := time, intEnable := intEnable, unsignalled := 0, timer := none, write := none,
    waiting := [] }

/-- The load succeeds: ring 0 and C0 become ACTIVE from the record and the device is RUNNING (R133, R150, R173 step 4). -/
def State.loadSucceeds (s : State) (r : BootRec) : State :=
  let s := s.setRing 0 (some (newRing r.ring0Base r.ring0Size.toNat none none 0))
  let s := s.setCRing 0 (some (newCRing r.c0Base r.c0Size.toNat r.threshold.toNat r.time.toNat r.intEnable))
  { s with device := .running, loadAddr := none }

/-! ## Orderly disable (R174, R175) -/

/-- The notice queues and line-notice-pending flags are cleared without writing at the entry to DISABLING (R37, R72, R87, R120). -/
def State.dropNotices (s : State) : State :=
  { s with
    lines := vmap (fun x => { x with linePending := false, noticeQueue := [] }) s.lines
    stations := vmap (Option.map fun x => { x with noticePending := false }) s.stations }

/-- The entry to DISABLING: lines, slots, Scanners and notices take their DISABLING rows, and a waiting admin command completes ABORTED once
the lines have taken their effects (R174).
DESIGN CHOICE, unsafe: notes/assumptions/48.md.  DESIGN CHOICE, unsafe: notes/assumptions/49.md. -/
def State.beginDisable (s : State) : State :=
  let s := { s with device := .disabling }
  let s := (List.finRange 8).foldl State.disableLine s
  s.dropNotices.abortAdmin

/-- The Scanner is IDLE and nothing of the line is left: the line is STOPPED with every slot FREE, no record read, no completion or notice
write (R175). -/
def Line.atRest (x : Line) : Bool :=
  x.run == .stopped && x.allFree && x.read.isNone && x.txnWriter.isNone && x.scanner.state == .idle && x.notice.isNone

/-- No write of the completion ring is in progress or requested (R175). -/
def CRing.atRest (c : CRing) : Bool := c.write.isNone && c.waiting.isEmpty

/-- All disabling work has ended (R175). -/
def State.allAtRest (s : State) : Bool :=
  s.admin.phase == .idle
  && (List.finRange 8).all (fun l => (s.line l).atRest)
  && (List.finRange 4).all (fun r => match s.cring r with
      | some c => c.atRest
      | none => true)

/-- A part in DISABLING whose work has ended reaches OFF with reset cause DISABLE, and begins loading at once if ENABLE is 1 (R175). -/
def State.endDisable (s : State) : State :=
  let s := s.reachOff .disable
  if s.enable then s.beginLoad else s

/-! ## The fields of DEVCTL (R172) -/

/-- The ENABLE field of a DEVCTL write, by device state (R172). -/
def State.writeEnable (s : State) (v : Bool) : State :=
  match s.device with
  | .off =>
    let s := { s with enable := v }
    if v then s.beginLoad else s
  | .loading =>
    let was := s.enable
    let s := { s with enable := v }
    if was && !v then s.reachOff .disable else s
  | .running =>
    let was := s.enable
    let s := { s with enable := v }
    if was && !v then s.beginDisable else s
  | .disabling => { s with enable := v }
  | .faulted => if v then s else { s with enable := false }.reachOff .faultClear

/-- The INT_ENABLE field of a DEVCTL write takes the written value (R172). -/
def State.writeIntEnable (s : State) (v : Bool) : State := { s with intEnable := v }

/-! ## Resets (R178) -/

/-- Power-on reset and HARD_RESET: every block takes its reset value, the reset cause tells which, and transfers in progress are cut off.
The levels of the RXD inputs, what host memory has been written, and the model's own counter and queue are not the part's to reset. -/
def State.resetAll (s : State) (cause : ResetCause) : State :=
  let s := s.cutWrites
  { State.reset with
    resetCause := cause
    lines := vmap (fun x => Line.reset x.pins.rxd) s.lines
    hostMem := s.hostMem
    choices := s.choices
    pending := s.pending }

end Sys2Proof.Machine
end

