-- ==== Sys2Proof/Machine/React.lean ====
section
/-! DEFINITION. What the units of the device do of themselves after each command or event: the fence test, the end of draining, the arrival in
STOPPED, the end of a waiting command, reaching OFF, the requests and starts of completion writes, the Intake, the Admin Processor's record
read, the Scanner's claim and return, the Arbiter's grant and the notice writer (R40, R41, R47, R50, R60, R68, R109, R117, R132, R134, R138,
R155, R175).  One act is taken at a time until none is left. -/

namespace Sys2Proof.Machine

/-- One act of one unit. -/
inductive Act where
  | fence (line : LineId) (slot : SlotId)
  | drain (ring : RingId)
  | lineStopped (line : LineId)
  | adminEnd
  | reachOff
  | txn (line : LineId)
  | adminWrite
  | startWrite (cring : CRingId)
  | intake (line : LineId)
  | adminRead
  | scanReturn (line : LineId)
  | scanClaim (line : LineId)
  | grant (line : LineId)
  | notice (line : LineId)
  deriving DecidableEq, Repr

/-! ## The fence test (R47) -/

/-- A slot in WAITING may leave it: no other non-FREE slot of the line holds a record of its source ring (R47). -/
def Line.fenceOpen (ln : Line) (i : SlotId) : Bool :=
  match ln.slot i with
  | some x =>
    x.state == .waiting && (List.finRange 8).all fun j =>
      j == i || (match ln.slot j with
        | some y => y.ring != x.ring
        | none => true)
  | none => false

/-! ## The end of draining (R132) -/

/-- A record read of ring `r` is in progress on its bound line. -/
def State.readInProgress (s : State) (r : RingId) : Bool :=
  (List.finRange 8).any fun l =>
    match (s.line l).read with
    | some rd => rd.ring == r
    | none => false

/-- A ring in DRAINING has no record in flight and no read in progress (R132). -/
def State.drained (s : State) (r : RingId) : Bool :=
  match s.ring r with
  | some x => x.state == .draining && x.inFlight == 0 && !s.readInProgress r
  | none => false

/-! ## The arrival in STOPPED (R68) -/

/-- A line in STOPPING by a graceful LINE_STOP has every slot FREE and phase IDLE (R68), and no record read in progress: a record whose read is in
progress at the stop runs as an existing slot (R42).
DEDUCED, unsafe: notes/assumptions/18.md. -/
def Line.stopReached (x : Line) : Bool := x.gracefulStop && x.allFree && x.read.isNone && x.phase == some .idle

/-! ## The end of a waiting command (R155) -/

/-- The status and result value with which a waiting command completes, when its condition is met (R154, R155). -/
def State.waitMet (s : State) (c : AdminCommand) : Option (Status × Nat) :=
  match c.wait with
  | none => none
  | some (.lineStart l) =>
    match (s.line l).run with
    | .running => some (.ok, 0)
    | .faulted => some (.lineFault, (lineFaultCode (s.line l).faultCause).toNat)
    | .stopped | .starting | .stopping => none
  | some (.lineStop l) =>
    match (s.line l).run with
    | .stopped => some (.ok, 0)
    | .faulted => some (.lineFault, (lineFaultCode (s.line l).faultCause).toNat)
    | .running | .starting | .stopping => none
  | some (.lineAbort l) =>
    match (s.line l).run with
    | .stopped => some (.ok, 0)
    | .faulted => some (.ok, 0)
    | .running | .starting | .stopping => none
  | some (.ringDelete r) => if (s.ring r).isNone then some (.ok, c.abandoned) else none
  | some (.detach e) => if (s.station e).isNone then some (.ok, e.val) else none

/-- The outcome of the command in WAITING, when its condition is met. -/
def State.adminMet (s : State) : Option (Status × Nat) :=
  match s.admin.phase, s.admin.command with
  | .waiting, some c => s.waitMet c
  | _, _ => none

/-- An abort stop that found its line FAULTED moves it to STOPPED at once (R166). -/
def State.stopFaultedForAbort (s : State) : State :=
  match s.admin.command with
  | some c =>
    match c.wait with
    | some (.lineAbort l) => if (s.line l).run = .faulted then s.modLine l Line.enterStopped else s
    | _ => s
  | none => s

/-- The waiting command's condition is met and its completion is decided (R155). -/
def State.endAdminWait (s : State) : State :=
  match s.adminMet with
  | some (st, v) => s.stopFaultedForAbort.adminDecide st v
  | none => s

/-! ## Intake (R40, R41) -/

/-- Ring `r` is eligible for intake on line `l` (R40); the device takes records in RUNNING alone (R135, R174). -/
def State.intakeEligible (s : State) (l : LineId) (r : RingId) : Bool :=
  match s.ring r with
  | some x =>
    s.device == .running
    && x.state == .active && x.line == some l
    && x.head != x.tail
    && (s.line l).run == .running
    && ((List.finRange 8).any fun i => ((s.line l).slot i).isNone) && (s.line l).read.isNone
    && decide (x.inFlight < Config.slotsPerRing)
    && !x.fenced
    && s.canReserve x.cring
  | none => false

/-- The rings in round-robin order after `last`: ascending and wrapping from 15 to 1, from ring 1 when there is none (R41, R51). -/
def roundRobin (last : Option RingId) : List RingId :=
  let order : List RingId := [1, 2, 3, 4, 5, 6, 7, 8, 9, 10, 11, 12, 13, 14, 15]
  match last with
  | none => order
  | some r => order.filter (fun q => r < q) ++ order.filter (fun q => q ≤ r)

/-- Ring `r` has priority class `c`. -/
def State.ringClass (s : State) (c : ClassId) (r : RingId) : Bool :=
  match s.ring r with
  | some x => x.cls == some c
  | none => false

/-- The ring the Intake of line `l` chooses in class `c` (R41). -/
def State.intakeInClass (s : State) (l : LineId) (c : ClassId) : Option (ClassId × RingId) :=
  ((roundRobin (vget (s.line l).intakeLast c)).find? fun r => s.ringClass c r && s.intakeEligible l r).map fun r => (c, r)

/-- The ring the Intake of line `l` chooses: the lowest class with an eligible ring, round robin within it (R41). -/
def State.intakeChoice (s : State) (l : LineId) : Option (ClassId × RingId) :=
  [0, 1, 2, 3].findSome? (s.intakeInClass l)

/-- The Intake of line `l` claims a reservation in the chosen ring's completion ring, the ring becomes the class's last served, and the record
read begins at the head (R41, R123). -/
def State.beginIntake (s : State) (l : LineId) : State :=
  match s.intakeChoice l with
  | none => s
  | some (c, r) =>
    match s.ring r with
    | none => s
    | some x =>
      (s.reserve x.cring).modLine l fun ln =>
        { ln with
          intakeLast := vput ln.intakeLast c (some r)
          read := some ⟨r, x.head, x.placeAddr x.head, []⟩ }

/-! ## The Admin Processor's record read (R134) -/

/-- The Admin Processor may begin a record read of ring 0 (R134). -/
def State.adminMayRead (s : State) : Bool :=
  s.device == .running && s.admin.phase == .idle
  && (match s.ring 0 with
      | some x => x.state == .active && x.head != x.tail
      | none => false)
  && s.canReserve 0

/-- The Admin Processor claims a C0 reservation and begins a record read of ring 0 (R134). -/
def State.beginAdminRead (s : State) : State :=
  { s.reserve 0 with admin :=
      { phase := .reading
        command := none
        requested := false
        read := (s.ring 0).map fun x => ⟨x.head, x.placeAddr x.head⟩ } }

/-! ## The Scanner's reservation (R109) -/

/-- The Scanner of line `l` claims a reservation: IDLE, device and line RUNNING, a candidate, and no refusal that no gain has ended
(R109). -/
def State.scanMayClaim (s : State) (l : LineId) : Bool :=
  let x := s.line l
  s.device == .running && x.run == .running && x.scanner.state == .idle && !x.scanner.refused && x.noticeRing.isSome
  && s.hasCandidate l

/-- The claim: granted, the Scanner enters HOLDING; refused, scan starves rises and the Scanner waits for a gain (R109, R121). -/
def State.scanClaimPlace (s : State) (l : LineId) : State :=
  match (s.line l).noticeRing with
  | none => s
  | some r =>
    if s.canReserve r then
      (s.reserve r).modLine l fun x =>
        { x with scanner := { x.scanner with state := .holding, reservation := some r } }
    else s.modLine l fun x =>
      { x with
        scanner := { x.scanner with refused := true }
        counters := { x.counters with scanStarves := satSucc 4294967295 x.counters.scanStarves } }

/-- A Scanner in HOLDING has no candidate left and returns its reservation (R109). -/
def State.scanMustReturn (s : State) (l : LineId) : Bool :=
  s.device == .running && (s.line l).scanner.state == .holding && !s.hasCandidate l

/-! ## The Arbiter (R48, R50 to R52, R110) -/

/-- Slot `i` of line `l` is eligible for a grant (R48). -/
def State.grantEligible (s : State) (l : LineId) (i : SlotId) : Bool :=
  match s.slot l i with
  | some x => x.state == .ready && !(s.line l).behindOlder x && !s.addrBlocked l x.addr
  | none => false

/-- Slot `i` is eligible and its record is of ring `r`. -/
def State.grantEligibleOf (s : State) (l : LineId) (r : RingId) (i : SlotId) : Bool :=
  s.grantEligible l i && (match s.slot l i with
    | some x => x.ring == r
    | none => false)

/-- The slot the Arbiter of line `l` chooses in class `c`: round robin by ring, the oldest eligible slot of the ring (R51). -/
def State.grantInClass (s : State) (l : LineId) (c : ClassId) : Option (ClassId × SlotId) :=
  ((roundRobin (vget (s.line l).arbLast c)).findSome? fun r =>
    if s.ringClass c r then (s.line l).oldest (allFin (s.grantEligibleOf l r)) else none).map fun i => (c, i)

/-- What the Arbiter grants: a slot of a class, or the Scanner's poll of a station (R50). -/
inductive Candidate where
  | slot (cls : ClassId) (slot : SlotId)
  | poll (entry : EntryId)
  deriving DecidableEq, Repr

/-- Step 2 of the Arbiter: the Scanner's due poll, in RUNNING (R50, R110). -/
def State.pollCandidate (s : State) (l : LineId) : Option Candidate :=
  let x := s.line l
  if x.run == .running && x.scanner.state == .holding then (s.scanChoice l).map .poll else none

/-- The candidate of line `l`: class 0, then the Scanner's due poll, then classes 1 to 3 (R50). -/
def State.arbiterChoice (s : State) (l : LineId) : Option Candidate :=
  let inClass := fun c => (s.grantInClass l c).map fun p => Candidate.slot p.1 p.2
  inClass 0 <|> s.pollCandidate l <|> inClass 1 <|> inClass 2 <|> inClass 3

/-- The line may be granted: phase IDLE, run state RUNNING or STOPPING, and a candidate (R50). -/
def State.mayGrant (s : State) (l : LineId) : Bool :=
  let x := s.line l
  x.phase == some .idle && (x.run == .running || x.run == .stopping) && (s.arbiterChoice l).isSome

/-- The request kind of a record (R9). -/
def subRecKind (r : SubRec) : ReqKind := if r.isFetch then .fetch else if r.isPoll then .poll else .store

/-- The payload of a slot's request: the params of a FETCH from the slot's copy of the record, none for a POLL, and what LOADING has filled
the held payload with for STORE and BROADCAST (R38, R90). -/
def Slot.requestPayload (x : Slot) : List Byte :=
  if x.sub.isFetch then x.sub.params.take x.sub.paramCount.toNat
  else if x.sub.isPoll then []
  else x.payload

/-- The attempt of a granted slot: the toggle and SYNC bits from the station entry and the record's SYNC flag at the grant; a broadcast
carries toggle 0 and SYNC 0 (R8, R14, R15, R52). -/
def State.slotAttempt (s : State) (l : LineId) (i : SlotId) (x : Slot) : Attempt :=
  let r := x.sub
  let sync := match s.keyed l x.addr with
    | some st => st.syncNeeded || r.sync
    | none => false
  let toggle := match s.keyed l x.addr with
    | some st => !sync && st.toggle
    | none => false
  { requester := .slot i
    addr := x.addr
    frame := requestFrame x.addr (subRecKind r) toggle sync x.requestPayload
    sync := sync }

/-- A grant to a slot: READY to ACTIVE, sync attempt, the ring last served by the Arbiter in its class, and LEAD (R51, R52). -/
def State.grantSlot (s : State) (l : LineId) (c : ClassId) (i : SlotId) : State :=
  match s.slot l i with
  | none => s
  | some x =>
    let a := s.slotAttempt l i x
    (s.modSlot l i fun y => { y with state := .active, syncAttempt := a.sync }).modLine l fun ln =>
      { ln with arbLast := vput ln.arbLast c (some x.ring) }.beginExchange s.nowUs a

/-- The attempt of a scan poll: POLL with LEN 0, a sync request when the entry is OFFLINE or its sync-needed is set (R14, R110). -/
def scanAttempt (st : Station) : Attempt :=
  let sync := st.syncNeeded || st.state == .offline
  { requester := .scanner
    addr := st.addr
    frame := requestFrame st.addr .poll (!sync && st.toggle) sync []
    sync := sync }

/-- A grant of the Scanner's poll (R110). -/
def State.grantPoll (s : State) (l : LineId) (e : EntryId) : State :=
  match s.station e with
  | none => s
  | some st =>
    let a := scanAttempt st
    s.modLine l fun ln =>
      { ln with scanner := { ln.scanner with state := .polling, polled := some (e, a.sync) } }.beginExchange s.nowUs a

/-- The Arbiter grants line `l` to its candidate (R50). -/
def State.grantLine (s : State) (l : LineId) : State :=
  match s.arbiterChoice l with
  | some (.slot c i) => s.grantSlot l c i
  | some (.poll e) => s.grantPoll l e
  | none => s

/-! ## The notice writer (R117) -/

/-- The notice writer of line `l` can start a notice: device RUNNING, a notice ring, something pending, none being written, and a place
(R117). -/
def State.noticeMayStart (s : State) (l : LineId) : Bool :=
  let x := s.line l
  s.device == .running && x.notice.isNone && x.noticeWaiting
  && (match x.noticeRing with
      | some r => s.canReserve r
      | none => false)
  && (s.takeNotice l).isSome

/-- The notice writer of line `l` starts its next notice. -/
def State.writeNotice (s : State) (l : LineId) : State :=
  match (s.line l).noticeRing with
  | some r => s.startNotice l r
  | none => s

/-! ## Completion writes (R138) -/

/-- The Admin Processor requests the write of its completion (R152 step 4). -/
def State.adminRequest (s : State) : State :=
  { s.requestWrite 0 .admin with admin := { s.admin with requested := true } }

/-- Ring `r` has a waiting writer and no write in progress (R138). -/
def State.mayStartWrite (s : State) (r : CRingId) : Bool :=
  match s.cring r with
  | some c => c.write.isNone && !c.waiting.isEmpty
  | none => false

/-- The write of the longest waiting writer of ring `r` begins: its record is composed, its place is the tail and its pass flag the ring's
pass value (R138). -/
def State.beginWrite (s : State) (r : CRingId) : State :=
  match s.cring r with
  | none => s
  | some c =>
    match c.waiting with
    | [] => s
    | w :: rest =>
      match s.recordOf w with
      | none => s.setCRing r (some { c with waiting := rest })
      | some rec =>
        s.setCRing r (some { c with
          waiting := rest
          write := some ⟨w, c.tail, rec, rec.bytes c.pass⟩ })

/-! ## Taking the acts one at a time -/

/-- An act's condition holds.
DESIGN CHOICE, unsafe: notes/assumptions/47.md. -/
def State.enabled (s : State) : Act → Bool
  | .fence l i => s.working && (s.line l).fenceOpen i
  | .drain r => s.working && s.drained r
  | .lineStopped l => s.working && (s.line l).stopReached
  | .adminEnd => s.working && s.adminMet.isSome
  | .reachOff => s.device == .disabling && s.allAtRest
  | .txn l => s.working && (match (s.line l).nextTxn with
      | some i => ((s.slot l i).bind s.slotCRing).isSome
      | none => false)
  | .adminWrite => s.working && s.admin.phase == .completing && !s.admin.requested
  | .startWrite r => s.working && s.mayStartWrite r
  | .intake l => (s.intakeChoice l).isSome
  | .adminRead => s.adminMayRead
  | .scanReturn l => s.scanMustReturn l
  | .scanClaim l => s.scanMayClaim l
  | .grant l => s.device == .running && s.mayGrant l
  | .notice l => s.noticeMayStart l

/-- An act is performed. -/
def State.perform (s : State) : Act → State
  | .fence l i => s.enterReady l i
  | .drain r => s.setRing r none
  | .lineStopped l => s.modLine l Line.enterStopped
  | .adminEnd => s.endAdminWait
  | .reachOff => s.endDisable
  | .txn l => s.requestTxn l
  | .adminWrite => s.adminRequest
  | .startWrite r => s.beginWrite r
  | .intake l => s.beginIntake l
  | .adminRead => s.beginAdminRead
  | .scanReturn l => s.dropPoll l
  | .scanClaim l => s.scanClaimPlace l
  | .grant l => s.grantLine l
  | .notice l => s.writeNotice l

/-- The acts that follow from the state without a claim, in the order they are looked for. -/
def consequences : List Act :=
  (List.finRange 8).flatMap (fun l => (List.finRange 8).map (Act.fence l))
    ++ (List.finRange 16).map Act.drain
    ++ (List.finRange 8).map Act.lineStopped
    ++ [.adminEnd, .reachOff]

/-- The acts that are claims of units on shared state. -/
def claims : List Act :=
  [.adminWrite, .adminRead]
    ++ (List.finRange 4).map Act.startWrite
    ++ (List.finRange 8).flatMap (fun l => [Act.txn l, .intake l, .scanReturn l, .scanClaim l, .grant l, .notice l])

/-- The completion ring in which an act claims a reservation (R140). -/
def State.reservesIn (s : State) : Act → Option CRingId
  | .intake l => (s.intakeChoice l).bind fun p => (s.ring p.2).map (·.cring)
  | .adminRead => some 0
  | .scanClaim l => (s.line l).noticeRing
  | .notice l => (s.line l).noticeRing
  | _ => none

/-- The completion ring whose write an act requests (R138). -/
def State.requestsIn (s : State) : Act → Option CRingId
  | .txn l => ((s.line l).nextTxn.bind (s.slot l)).bind s.slotCRing
  | .adminWrite => some 0
  | .notice l => (s.line l).noticeRing
  | _ => none

/-- The line whose next grant an act bears on: the Arbiter's grant and the Scanner's claim (R50, R109). -/
def Act.grantsOn : Act → Option LineId
  | .grant l => some l
  | .scanClaim l => some l
  | _ => none

/-- Two optional values are present and equal. -/
def sameSome {α : Type} [DecidableEq α] (a b : Option α) : Bool :=
  match a, b with
  | some x, some y => decide (x = y)
  | _, _ => false

/-- Ring `r` has places left, but fewer than the acts that claim one (R140: the claim taken first is granted). -/
def State.scarce (s : State) (acts : List Act) (r : CRingId) : Bool :=
  match s.cring r with
  | some c => decide (0 < c.free ∧ c.free < (acts.filter fun a => s.reservesIn a == some r).length)
  | none => false

/-- Two acts compete: for the last places of a completion ring, for the order of two write requests of one ring, or for one line. -/
def State.compete (s : State) (acts : List Act) (a b : Act) : Bool :=
  (sameSome (s.reservesIn a) (s.reservesIn b) && (match s.reservesIn a with
    | some r => s.scarce acts r
    | none => false))
  || sameSome (s.requestsIn a) (s.requestsIn b)
  || sameSome a.grantsOn b.grantsOn

/-- The act taken next, and whether it was a free choice among competing acts: first what follows without a claim, then the first claim or
one that competes with it, by the free value (notes/assumptions/2.md). -/
def State.nextAct (s : State) : Option (Act × Bool) :=
  match consequences.find? s.enabled with
  | some a => some (a, false)
  | none =>
    match claims.filter s.enabled with
    | [] => none
    | a :: rest =>
      match rest.filter (s.compete (a :: rest) a) with
      | [] => some (a, false)
      | b :: more =>
        some ((a :: b :: more).getD (Config.raceWinner s.choices % (more.length + 2)) a, true)

/-- The state after a free choice has been taken. -/
def State.choiceTaken (s : State) (free : Bool) : State := if free then { s with choices := s.choices + 1 } else s

/-- The units act, one act at a time, at most `n` of them. -/
def State.reactFor : Nat → State → State
  | 0, s => s
  | n + 1, s =>
    match s.nextAct with
    | none => s
    | some (a, free) => State.reactFor n ((s.perform a).choiceTaken free)

/-- A bound on the acts of one step: every slot, ring, Scanner, notice writer and line can act only a few times before another event.
DESIGN CHOICE, unsafe: notes/assumptions/37.md. -/
def reactLimit : Nat := 1024

/-- The units act until none has anything left to do (R40, R50, R109, R117, R138, R141).
DESIGN CHOICE, unsafe: notes/assumptions/41.md. -/
def State.react (s : State) : State := State.reactFor reactLimit s

end Sys2Proof.Machine
end

