-- ==== Sys2Proof/Machine/Admin.lean ====
section
/-! DEFINITION. The Admin Processor: the judgement of each of the seventeen admin commands in the order of R153, its execution, its wait or
report, and the taking of an admin record (chapter 9). -/

namespace Sys2Proof.Machine

/-! ## How a taken command goes on (R152, R153, R155) -/

/-- A failed test completes the command at once with its status and result value 0; no other state changes (R153). -/
def State.adminFail (s : State) (status : Status) : State := s.adminDecide status 0

/-- The command enters WAITING (R155). -/
def State.adminWait (s : State) (w : AdminWait) (abandoned : Nat) : State :=
  { s with admin :=
      { phase := .waiting
        command := s.admin.command.map fun c => { c with wait := some w, abandoned := abandoned }
        requested := false
        read := none } }

/-- A query's report is composed and its write to the buffer begins; a range above the top of the address space ends at once with an error
(R91, R170). -/
def State.adminReport (s : State) (report : List Byte) (buf : Addr) : State :=
  let s := { s with admin :=
      { phase := .reporting
        command := s.admin.command.map fun c => { c with report := report }
        requested := false
        read := none } }
  if rangeOk buf report.length then s else s.adminDecide .hostWriteError 0

/-! ## Submission rings (R156 to R158) -/

/-- RING_CREATE (R156).
DESIGN CHOICE, safe: notes/assumptions/29.md. -/
def State.adminRingCreate (ring sizeCode line cls cring : Byte) (base : Addr) (s : State) : State :=
  match txnRingOf ring, lineOf line, classOf cls, cringOf cring with
  | some r, some l, some c, some q =>
    if !ringGeometryOk base 32 2 12 sizeCode then s.adminFail .badParam
    else if (s.cring q).isNone then s.adminFail .notFound
    else if (s.line l).config.isNone then s.adminFail .wrongState
    else if (s.ring r).isSome then s.adminFail .inUse
    else (s.setRing r (some (newRing base sizeCode.toNat (some l) (some c) q))).adminDecide .ok 0
  | _, _, _, _ => s.adminFail .badParam

/-- The context of a ring that a RING_* command may name: ACTIVE or PAUSED; DRAINING is found no more than ABSENT is (R124). -/
def State.namedRing (s : State) (r : RingId) : Option SubRing :=
  match s.ring r with
  | some x => if x.state = .draining then none else some x
  | none => none

/-- RING_PAUSE (R131, R157). -/
def State.adminRingPause (ring : Byte) (s : State) : State :=
  match txnRingOf ring with
  | none => s.adminFail .badParam
  | some r =>
    match s.namedRing r with
    | none => s.adminFail .notFound
    | some x =>
      if x.state = .paused then s.adminFail .wrongState
      else (s.setRing r (some { x with state := .paused })).adminDecide .ok 0

/-- The class byte of a RING_RESUME: a class 0 to 3, or 0xFF for "keep" (R157, section 11.2). -/
def resumeClassOf (b : Byte) : Option (Option ClassId) := if b == 0xFF then some none else (classOf b).map some

/-- RING_RESUME (R130, R131, R157). -/
def State.adminRingResume (ring cls : Byte) (s : State) : State :=
  match txnRingOf ring, resumeClassOf cls with
  | some r, some c =>
    match s.namedRing r with
    | none => s.adminFail .notFound
    | some x =>
      if x.state = .active then s.adminFail .wrongState
      else (s.setRing r (some { x with state := .active, cls := c <|> x.cls })).adminDecide .ok 0
  | _, _ => s.adminFail .badParam

/-- The abandoned count of a deletion: the pending count, less 1 while a record read of the ring is in progress (R132).  The count wraps at
the size as every step of a pending count does (R123).
DESIGN CHOICE, unsafe: notes/assumptions/19.md. -/
def State.abandonedCount (s : State) (r : RingId) (x : SubRing) : Nat :=
  if s.readInProgress r then indexDistance (ringSize x.sizeCode) 1 x.pendingCount else x.pendingCount

/-- The RING_DELETE abort row of R61 for a slot of the deleted ring: an ACTIVE slot carries the last-attempt mark, a slot that is not yet
completing is cut off (R58, R158). -/
def Slot.ringAborted (x : Slot) : Slot :=
  if x.state = .active then { x with lastAttempt := true } else x.cutOff .aborted

/-- RING_DELETE abort reaches the slots and the record read of the ring on its line (R42, R61, R158). -/
def Line.ringAborted (r : RingId) (x : Line) : Line :=
  { x.mapSlots (fun y => if y.ring = r then y.ringAborted else y) with
    read := x.read.map fun rd =>
      if rd.ring = r then { rd with events := rd.events ++ [.decided .aborted] } else rd }

/-- RING_DELETE (R132, R158). -/
def State.adminRingDelete (ring mode : Byte) (s : State) : State :=
  match txnRingOf ring with
  | none => s.adminFail .badParam
  | some r =>
    if 1 < mode.toNat then s.adminFail .badParam
    else match s.namedRing r with
    | none => s.adminFail .notFound
    | some x =>
      let n := s.abandonedCount r x
      let s := s.setRing r (some { x with state := .draining })
      let s := match x.line with
        | some l => if mode = 1 then s.modLine l (Line.ringAborted r) else s
        | none => s
      s.adminWait (.ringDelete r) n

/-! ## Completion rings (R159 to R161) -/

/-- CRING_CREATE (R150, R159). -/
def State.adminCringCreate (ring sizeCode n : Byte) (intEnable : Bool) (t : Half) (base : Addr) (s : State) : State :=
  match laterCringOf ring with
  | none => s.adminFail .badParam
  | some r =>
    if !ringGeometryOk base 16 3 13 sizeCode || n == 0 then s.adminFail .badParam
    else if (s.cring r).isSome then s.adminFail .inUse
    else (s.setCRing r (some (newCRing base sizeCode.toNat n.toNat t.toNat intEnable))).adminDecide .ok 0

/-- The steps of R146 for ring `r`, whose context `c` already holds the new policy. -/
def State.policySteps (s : State) (r : CRingId) (c : CRing) : State :=
  if 0 < c.unsignalled ∧ c.threshold ≤ c.unsignalled then s.signalRing r
  else if c.time = 0 then s.setCRing r (some { c with timer := none })
  else match c.timer with
  | some start => if c.time ≤ s.nowUs - start then s.signalRing r else s
  | none => if 0 < c.unsignalled then s.setCRing r (some { c with timer := some s.nowUs }) else s

/-- CRING_POLICY (R146, R160). -/
def State.adminCringPolicy (ring n : Byte) (intEnable : Bool) (t : Half) (s : State) : State :=
  match cringOf ring with
  | none => s.adminFail .badParam
  | some r =>
    if n = 0 then s.adminFail .badParam
    else match s.cring r with
    | none => s.adminFail .notFound
    | some c =>
      let c := { c with threshold := n.toNat, time := t.toNat, intEnable := intEnable }
      ((s.setCRing r (some c)).policySteps r c).adminDecide .ok 0

/-- A submission ring or a line's configuration names the completion ring (R150, R161). -/
def State.cringNamed (s : State) (r : CRingId) : Bool :=
  ((List.finRange 16).any fun q => match s.ring q with
    | some x => x.cring == r
    | none => false)
  || (List.finRange 8).any fun l => (s.line l).noticeRing == some r

/-- CRING_DELETE (R148, R150, R161). -/
def State.adminCringDelete (ring : Byte) (s : State) : State :=
  match laterCringOf ring with
  | none => s.adminFail .badParam
  | some r =>
    match s.cring r with
    | none => s.adminFail .notFound
    | some c =>
      if s.cringNamed r || decide (0 < c.written) || decide (0 < c.reserved) then s.adminFail .inUse
      else ((s.setCRing r none).clearCause r.val).adminDecide .ok 0

/-! ## The pool (R162, R163) -/

/-- POOL_CREATE (R113, R162). -/
def State.adminPoolCreate (sizeCode : Byte) (base : Addr) (s : State) : State :=
  if !ringGeometryOk base 8 2 10 sizeCode then s.adminFail .badParam
  else if s.pool.isSome then s.adminFail .inUse
  else { s with pool := some ⟨base, sizeCode.toNat, 0, 0⟩ }.adminDecide .ok 0

/-- Scanning, a pending redelivery or a delivery still needs the pool (R163). -/
def State.poolNeeded (s : State) : Bool :=
  ((List.finRange 128).any fun e => match s.station e with
    | some x => x.scanPeriod != 0 || x.redelivery
    | none => false)
  || (List.finRange 8).any fun l => (s.line l).scanner.state == .delivering

/-- POOL_DELETE (R163). -/
def State.adminPoolDelete (s : State) : State :=
  if s.pool.isNone then s.adminFail .notFound
  else if s.poolNeeded then s.adminFail .inUse
  else { s with pool := none }.adminDecide .ok 0

/-! ## Lines (R164 to R166) -/

/-- A station entry of the line has a nonzero scan period or redelivery pending (R86, R164). -/
def State.scannedOn (s : State) (l : LineId) : Bool :=
  (List.finRange 128).any fun e => match s.station e with
    | some x => x.line == l && (x.scanPeriod != 0 || x.redelivery)
    | none => false

/-- The notice ring of a configuration names an ABSENT completion ring (R164). -/
def State.noticeRingMissing (s : State) (c : LineConfig) : Bool :=
  match c.noticeRing with
  | some r => (s.cring r).isNone
  | none => false

/-- LINE_CONFIG (R86, R164, R180). -/
def State.adminLineConfig (line : Byte) (f : LineFields) (s : State) : State :=
  match lineOf line, resolveConfig f with
  | some l, some c =>
    if s.noticeRingMissing c then s.adminFail .notFound
    else if (s.line l).run ≠ .stopped then s.adminFail .wrongState
    else if c.noticeRing.isNone && s.scannedOn l then s.adminFail .inUse
    else (s.modLine l fun x => { x with config := some c }).adminDecide .ok 0
  | _, _ => s.adminFail .badParam

/-- LINE_START (R64, R165). -/
def State.adminLineStart (line : Byte) (s : State) : State :=
  match lineOf line with
  | none => s.adminFail .badParam
  | some l =>
    if (s.line l).config.isNone then s.adminFail .wrongState
    else match (s.line l).run with
    | .stopped | .faulted => (s.modLine l (Line.enterStarting s.nowUs)).adminWait (.lineStart l) 0
    | .starting | .running | .stopping => s.adminFail .wrongState

/-- A graceful LINE_STOP of a RUNNING line: STOPPING, the Scanner's reservation held for a poll not yet granted returned, and the slots
deferred for a pending redelivery ABORTED; a poll in progress runs to its end (R68, R119, R166). -/
def State.gracefulStop (s : State) (l : LineId) : State :=
  let s := s.modLine l fun x => { x with run := .stopping }
  let s := if (s.line l).scanner.state = .holding then s.dropPoll l else s
  s.abortRedeliveryDeferred l

/-- LINE_STOP (R68, R69, R166).  A line in STARTING or STOPPING cannot be met, since the command that put it there holds the admin ring
(R70).
DESIGN CHOICE, safe: notes/assumptions/29.md. -/
def State.adminLineStop (line mode : Byte) (s : State) : State :=
  match lineOf line with
  | none => s.adminFail .badParam
  | some l =>
    if 1 < mode.toNat then s.adminFail .badParam
    else match (s.line l).run with
    | .stopped => s.adminDecide .ok 0
    | .faulted => (s.modLine l Line.enterStopped).adminDecide .ok 0
    | .running =>
      if mode = 0 then (s.gracefulStop l).adminWait (.lineStop l) 0
      else (s.abortLine l).adminWait (.lineAbort l) 0
    | .starting | .stopping => s.adminFail .wrongState

/-! ## Stations (R167 to R169) -/

/-- A new entry as STATION_ATTACH sets it (R19, R20, R108). -/
def newStation (l : LineId) (addr period now : Nat) : Station where
  line := l
  addr := addr
  state := .new
  toggle := false
  syncNeeded := true
  failureCount := 0
  holdUntil := none
  redelivery := false
  scanPeriod := period
  nextDue := now
  noticePending := false
  changes := 0
  exchanges := 0
  failures := 0
  busy := 0
  redeliveries := 0
  losses := 0
  lastKind := none

/-- The lowest-numbered free entry (R20). -/
def State.freeStation (s : State) : Option EntryId := firstFin fun e => (s.station e).isNone

/-- A nonzero scan period needs a line with a notice ring (R20, R167, R169). -/
def State.cannotScan (s : State) (l : LineId) (period : Half) : Bool := period != 0 && (s.line l).noticeRing.isNone

/-- STATION_ATTACH (R20, R167). -/
def State.adminStationAttach (line addr : Byte) (period : Half) (s : State) : State :=
  match lineOf line with
  | none => s.adminFail .badParam
  | some l =>
    if !stationAddrOk addr || !scanPeriodOk period then s.adminFail .badParam
    else if s.cannotScan l period then s.adminFail .wrongState
    else if (s.lookup l addr.toNat).isSome then s.adminFail .inUse
    else match s.freeStation with
    | none => s.adminFail .noRoom
    | some e =>
      (s.setStation e (some (newStation l addr.toNat period.toNat s.nowMs))).adminDecide .ok e.val

/-- STATION_DETACH reaches the slots of the station on its line, and a record read in progress (R33, R42). -/
def Line.detachSlots (a : Nat) (x : Line) : Line :=
  { x.mapSlots (fun y => if y.addr = a then y.cutOff .detached else y) with
    read := x.read.map fun rd => { rd with events := rd.events ++ [.detached a] } }

/-- The line has an attempt in progress addressed to the station (R33). -/
def Line.attemptTo (x : Line) (a : Nat) : Bool :=
  match x.attempt with
  | some t => t.addr == a
  | none => false

/-- STATION_DETACH (R33, R34, R168). -/
def State.adminStationDetach (line addr : Byte) (s : State) : State :=
  match lineOf line with
  | none => s.adminFail .badParam
  | some l =>
    if !stationAddrOk addr then s.adminFail .badParam
    else match s.lookup l addr.toNat with
    | none => s.adminFail .notFound
    | some e =>
      let s := s.modLine l (Line.detachSlots addr.toNat)
      if (s.line l).attemptTo addr.toNat then (s.changeState e .detaching).adminWait (.detach e) 0
      else (s.freeEntry e).adminDecide .ok e.val

/-- STATION_SCAN (R108, R169). -/
def State.adminStationScan (line addr : Byte) (period : Half) (s : State) : State :=
  match lineOf line with
  | none => s.adminFail .badParam
  | some l =>
    if !stationAddrOk addr || !scanPeriodOk period then s.adminFail .badParam
    else match s.lookup l addr.toNat with
    | none => s.adminFail .notFound
    | some e =>
      if s.cannotScan l period then s.adminFail .wrongState
      else match s.station e with
      | none => s.adminFail .notFound
      | some x =>
        (s.setStation e (some { x with
          scanPeriod := period.toNat
          nextDue := if period.toNat = 0 then x.nextDue else s.nowMs })).adminDecide .ok x.scanPeriod

/-! ## Queries (R170) -/

/-- The counters of a station entry cleared by STATION_QUERY (R35, R36). -/
def Station.cleared (x : Station) : Station :=
  { x with exchanges := 0, failures := 0, busy := 0, redeliveries := 0, losses := 0, lastKind := none }

/-- STATION_QUERY (R36, R170). -/
def State.adminStationQuery (index : Byte) (clear : Bool) (buf : Addr) (s : State) : State :=
  match entryOf index with
  | none => s.adminFail .badParam
  | some e =>
    match s.station e with
    | none => s.adminFail .notFound
    | some x =>
      let report := stationReport s.nowMs e x
      (if clear then s.setStation e (some x.cleared) else s).adminReport report buf

/-- LINE_QUERY (R88, R170). -/
def State.adminLineQuery (line part : Byte) (clear : Bool) (buf : Addr) (s : State) : State :=
  match lineOf line with
  | none => s.adminFail .badParam
  | some l =>
    if 2 < part.toNat then s.adminFail .badParam
    else
      let report := lineReport l (s.line l) part.toNat
      (if clear then s.modLine l fun x => { x with counters := .zero } else s).adminReport report buf

/-! ## Taking an admin record (R128, R152, R155) -/

/-- A judged-for-form command is executed or fails one of its tests (R153).
DEDUCED, safe: notes/assumptions/13.md. -/
def State.runAdmin (s : State) : AdminCmd → State
  | .ringCreate ring sizeCode line cls cring base => s.adminRingCreate ring sizeCode line cls cring base
  | .ringPause ring => s.adminRingPause ring
  | .ringResume ring cls => s.adminRingResume ring cls
  | .ringDelete ring mode => s.adminRingDelete ring mode
  | .cringCreate ring sizeCode n ie t base => s.adminCringCreate ring sizeCode n ie t base
  | .cringPolicy ring n ie t => s.adminCringPolicy ring n ie t
  | .cringDelete ring => s.adminCringDelete ring
  | .poolCreate sizeCode base => s.adminPoolCreate sizeCode base
  | .poolDelete => s.adminPoolDelete
  | .lineConfig line f => s.adminLineConfig line f
  | .lineStart line => s.adminLineStart line
  | .lineStop line mode => s.adminLineStop line mode
  | .stationAttach line addr period => s.adminStationAttach line addr period
  | .stationDetach line addr => s.adminStationDetach line addr
  | .stationScan line addr period => s.adminStationScan line addr period
  | .stationQuery index clear buf => s.adminStationQuery index clear buf
  | .lineQuery line part clear buf => s.adminLineQuery line part clear buf

/-- A record read of ring 0 is in progress (R152). -/
def State.adminReading (s : State) : Bool := s.admin.phase == .reading && s.working

/-- Ring 0's record read has ended without error: the head advances, the in-flight count becomes 1 and the record is the command in progress
(R128, R152 step 2). -/
def State.adminTaken (s : State) (record : List Byte) : State :=
  let s := s.modRing 0 fun x => { x with head := nextIndex (ringSize x.sizeCode) x.head, inFlight := 1 }
  { s with admin := { phase := .completing, command := some ⟨record, 0, [], none, none⟩, requested := false, read := none } }

/-- The end of ring 0's record read with a record whose command is `cmd`, none for BAD_RECORD: the record is taken, and under DISABLING
completes ABORTED without being executed; without a read in progress there is no effect (R152, R153, R155).
DEDUCED, unsafe: notes/assumptions/22.md. -/
def State.takeAdmin (s : State) (record : List Byte) (cmd : Option AdminCmd) : State :=
  if s.adminReading then
    let t := s.adminTaken record
    if s.device = .disabling then t.adminFail .aborted
    else match cmd with
    | none => t.adminFail .badRecord
    | some c => t.runAdmin c
  else s

end Sys2Proof.Machine
end

