-- ==== Sys2Proof/Machine/HostCommands.lean ====
section
/-! DEFINITION. The commands of the host: the resets, the fields of DEVCTL, POST, RELEASE, INTCAUSE and the other register writes (R125 to
R127, R142, R147, R171, R172, R178). -/

namespace Sys2Proof.Machine

/-! ## POST (R125 to R127) -/

/-- A POST of a submission ring is judged against its context and replaces its tail (R125, R126). -/
def State.postRing (s : State) (r : RingId) (tail : Nat) : State :=
  match s.namedRing r with
  | none => s.rejectPost .noRing
  | some x =>
    if tail < ringSize x.sizeCode then s.setRing r (some { x with tail := tail }) else s.rejectPost .badIndex

/-- A POST of ring 16 replaces the pool ring's tail; one that raises the untaken entries from none makes every redelivery-pending station due
(R125, R127). -/
def State.postPool (s : State) (tail : Nat) : State :=
  match s.pool with
  | none => s.rejectPost .noRing
  | some p =>
    if tail < ringSize p.sizeCode then
      let t := { s with pool := some { p with tail := tail } }
      if p.head = p.tail ∧ tail ≠ p.head then t.poolRefilled else t
    else s.rejectPost .badIndex

/-- A write of POST: NOT_RUNNING, NO_RING and BAD_INDEX in this order, otherwise accepted (R125). -/
def State.writePost (s : State) (ring : Byte) (tail : Half) : State :=
  if s.device ≠ .running then s.rejectPost .notRunning
  else if ring = 16 then s.postPool tail.toNat
  else match indexOf 16 ring with
  | some r => s.postRing r tail.toNat
  | none => s.rejectPost .noRing

/-! ## RELEASE (R142) -/

/-- A write of RELEASE: NOT_RUNNING, NO_RING and BAD_INDEX in this order, otherwise the places up to the new head are given back (R142). -/
def State.writeRelease (s : State) (ring : Byte) (head : Half) : State :=
  if s.device ≠ .running then s.rejectPost .notRunning
  else match cringOf ring with
  | none => s.rejectPost .noRing
  | some r =>
    match s.cring r with
    | none => s.rejectPost .noRing
    | some c =>
      let k := indexDistance (ringSize c.sizeCode) c.head head.toNat
      if head.toNat < ringSize c.sizeCode ∧ k ≤ c.written then
        let t := s.setCRing r (some { c with head := head.toNat, written := c.written - k })
        if 0 < k then t.gainPlace r else t
      else s.rejectPost .badIndex

/-! ## INTCAUSE and the other registers (R147, R171) -/

/-- A write of INTCAUSE clears each bit written with 1 (R147). -/
def State.writeIntcause (s : State) (v : Word) : State := { s with intcause := s.intcause &&& ~~~(v.setWidth 6) }

/-- A whole write of DEVCTL: HARD_RESET written with 1 is taken alone; otherwise INT_ENABLE and ENABLE take the written values (R172). -/
def State.writeDevctl (s : State) (v : Word) : State :=
  if v.getLsbD 2 then s.resetAll .hard else (s.writeIntEnable (v.getLsbD 1)).writeEnable (v.getLsbD 0)

/-- A write of a register of the register window, its bits shown as zero not taken (R171, R179, section 11.5). -/
def State.writeReg (s : State) (reg : Reg) (v : Word) : State :=
  match reg with
  | .devid => s
  | .devctl => s.writeDevctl v
  | .devstat => s
  | .bootLo => { s with bootAddr := s.bootAddr.extractLsb' 32 32 ++ v }
  | .bootHi => { s with bootAddr := v ++ s.bootAddr.extractLsb' 0 32 }
  | .post => s.writePost (v.extractLsb' 0 8) (v.extractLsb' 16 16)
  | .release => s.writeRelease (v.extractLsb' 0 8) (v.extractLsb' 16 16)
  | .intcause => s.writeIntcause v

/-! ## The meanings -/

/-- POWER_ON_RESET (R178). -/
def execPowerOnReset (s : State) : Host.Outcome State Fault Refusal := .next (s.resetAll .power)

/-- HARD_RESET (R172, R178). -/
def execHardReset (s : State) : Host.Outcome State Fault Refusal := .next (s.resetAll .hard)

/-- ENABLE (R172 to R177). -/
def execEnable (v : Bool) (s : State) : Host.Outcome State Fault Refusal := .next (s.writeEnable v).react

/-- INT_ENABLE (R149, R172). -/
def execIntEnable (v : Bool) (s : State) : Host.Outcome State Fault Refusal := .next (s.writeIntEnable v).react

/-- POST (R125 to R127). -/
def execPost (ring : Byte) (tail : Half) (s : State) : Host.Outcome State Fault Refusal := .next (s.writePost ring tail).react

/-- RELEASE (R142). -/
def execRelease (ring : Byte) (head : Half) (s : State) : Host.Outcome State Fault Refusal :=
  .next (s.writeRelease ring head).react

/-- INTCAUSE (R147). -/
def execIntcause (v : Word) (s : State) : Host.Outcome State Fault Refusal := .next (s.writeIntcause v).react

/-- REGISTER_WRITE (R171). -/
def execRegisterWrite (reg : Reg) (v : Word) (s : State) : Host.Outcome State Fault Refusal := .next (s.writeReg reg v).react

end Sys2Proof.Machine
end

