-- ==== Sys2Proof/Machine/BusEvents.lean ====
section
/-! DEFINITION. The ends of the host-bus operations: the bootstrap record read, record reads, payload reads, data writes, pool entry reads,
scan data writes, report writes and completion writes (R42 to R46, R59, R60, R91, R97, R98, R114, R138, R152, R170, R173).  An end of an
operation that is not in progress has no effect (notes/assumptions/10.md). -/

namespace Sys2Proof.Machine

/-! ## The bootstrap record read (R173) -/

/-- The bootstrap record read ends: RUNNING, or FAULTED with BOOT_READ or BAD_BOOT (R173). -/
def State.bootReadEnds (s : State) (r : BusRead) : State :=
  if s.device = .loading then
    match r with
    | .error => s.deviceFault .bootRead
    | .ok bs => if (decodeBoot bs).valid then s.loadSucceeds (decodeBoot bs) else s.deviceFault .badBoot
  else s

/-! ## Record reads (R42 to R45) -/

/-- The status that an event taken during the record read has decided, the first taken first; a detach reaches a record of right form for its
station (R42, R43).
DEDUCED, unsafe: notes/assumptions/20.md. -/
def readDecision (r : SubRec) : List ReadEvent → Option Status
  | [] => none
  | .decided st :: _ => some st
  | .detached a :: rest =>
    if r.formOk && !r.isBroadcast && r.addr.toNat == a then some .detached else readDecision r rest

/-- The judgement of a record by the state of the entry with its key (R44). -/
def lookupJudgement (force : Bool) : Option StationState → Option Status
  | none => some .noStation
  | some .detaching => some .detached
  | some .offline => if force then none else some .stationOffline
  | some .new => none
  | some .online => none
  | some .suspect => none

/-- The judgement of a taken record: the status with which it completes at intake, none where it passes (R42 to R44). -/
def State.judgeRecord (s : State) (l : LineId) (r : SubRec) (events : List ReadEvent) : Option Status :=
  match readDecision r events with
  | some st => some st
  | none =>
    if !r.formOk then some .badRecord
    else if r.isBroadcast then none
    else lookupJudgement r.force (s.keyedState l r.addr.toNat)

/-- A slot as the Intake sets it for a taken record, its held payload empty (R38). -/
def newSlot (bytes : List Byte) (ring : RingId) (age : Nat) : Slot where
  state := .ready
  record := bytes
  ring := ring
  age := age
  attempts := 0
  busy := 0
  lastCause := none
  syncAttempt := false
  lastAttempt := false
  payload := []
  decided := none
  response := []
  fenceHeld := false
  outcome := none

/-- A record that has passed judgement is placed: its ring's fenced-outstanding flag is set with FENCE; STORE and BROADCAST go to LOADING,
FETCH and POLL to WAITING with FENCE and otherwise to READY or what R49 puts in its place (R45, R129). -/
def State.placeRecord (s : State) (l : LineId) (i : SlotId) (ring : RingId) (r : SubRec) : State :=
  let s :=
    if r.fence then
      (s.modRing ring fun x => { x with fenced := true }).modSlot l i fun y => { y with fenceHeld := true }
    else s
  if r.isStore || r.isBroadcast then s.beginLoading l i
  else if r.fence then s.modSlot l i fun y => { y with state := .waiting }
  else s.enterReady l i

/-- A record of ring `ring`, taken while `events` were noted, goes into slot `i` of line `l` (R42). -/
def State.takeInto (s : State) (l : LineId) (i : SlotId) (ring : RingId) (events : List ReadEvent) (bytes : List Byte) : State :=
  let age := (s.line l).nextAge
  let s := s.modRing ring fun x =>
    { x with head := nextIndex (ringSize x.sizeCode) x.head, inFlight := x.inFlight + 1 }
  let s := s.modLine l fun x =>
    { x.setSlot i (some (newSlot bytes ring age)) with read := none, nextAge := age + 1 }
  let r := decodeSub bytes
  match s.judgeRecord l r events with
  | some st => s.modSlot l i (·.finishPlain st)
  | none => s.placeRecord l i ring r

/-- The lowest-numbered FREE slot of a line: the manual lets any FREE slot receive a record (notes/assumptions/11.md). -/
def Line.freeSlot (x : Line) : Option SlotId := firstFin fun i => (x.slot i).isNone

/-- The record read of line `l` ends: the record is taken, or the device faults with RING_READ (R42, R128). -/
def State.recordReadEnds (s : State) (l : LineId) (r : BusRead) : State :=
  if s.working then
    match (s.line l).read with
    | none => s
    | some rd =>
      match r with
      | .error => s.deviceFault .ringRead
      | .ok bs =>
        match (s.line l).freeSlot with
        | none => s
        | some i => s.takeInto l i rd.ring rd.events (fitBytes 32 bs)
  else s

/-- Ring 0's record read ends: the record is taken, or the device faults with RING_READ (R128, R152). -/
def State.adminReadEnds (s : State) (r : BusRead) : State :=
  match r with
  | .error => if s.adminReading then s.deviceFault .ringRead else s
  | .ok bs => s.takeAdmin (fitBytes 32 bs) (decodeAdmin (fitBytes 32 bs))

/-! ## Payload reads and data writes (R46, R59) -/

/-- Slot `i` of line `l` is in a given state, in a device that works. -/
def State.slotIs (s : State) (l : LineId) (i : SlotId) (st : SlotState) : Bool :=
  s.working && (match s.slot l i with
    | some x => x.state == st
    | none => false)

/-- The payload read of a slot in LOADING ends (R46, R98). -/
def State.payloadReadEnds (s : State) (l : LineId) (i : SlotId) (r : BusRead) : State :=
  if s.slotIs l i .loading then
    match r with
    | .ok bs => s.payloadLoaded l i bs
    | .error => s.payloadFailed l i
  else s

/-- The data write of a slot in STORING ends: the bytes accepted by the bus are in host memory (R59, R96, R97). -/
def State.dataWriteEnds (s : State) (l : LineId) (i : SlotId) (w : BusWrite) : State :=
  if s.slotIs l i .storing then
    match s.slot l i with
    | none => s
    | some x =>
      let bytes := x.response.take x.storeCount
      match w with
      | .ok => (s.hostWrite x.sub.buf.toNat bytes).modSlot l i Slot.stored
      | .error landed => (s.hostWriteMasked x.sub.buf.toNat bytes landed).modSlot l i Slot.storeFailed
  else s

/-! ## Deliveries of scan data (R114) -/

/-- The delivery in hand of line `l`'s Scanner. -/
def State.deliveryOf (s : State) (l : LineId) : Option Delivery :=
  if s.working && (s.line l).scanner.state == .delivering then (s.line l).scanner.delivery else none

/-- The pool entry read of a delivery ends: the buffer address is known, or the device faults with POOL_READ (R114 step 1). -/
def State.poolReadEnds (s : State) (l : LineId) (r : BusRead) : State :=
  match s.deliveryOf l with
  | none => s
  | some d =>
    match d.buffer with
    | some _ => s
    | none =>
      match r with
      | .ok bs => s.deliveryAddressed l d (addrAt bs 0)
      | .error => s.deviceFault .poolRead

/-- The data write of a delivery ends (R114 step 2). -/
def State.scanWriteEnds (s : State) (l : LineId) (w : BusWrite) : State :=
  match s.deliveryOf l with
  | none => s
  | some d =>
    match d.buffer, d.status with
    | some b, none =>
      match w with
      | .ok => (s.hostWrite b.toNat d.payload).deliveryDecided l d .ok
      | .error landed => (s.hostWriteMasked b.toNat d.payload landed).deliveryDecided l d .hostWriteError
    | _, _ => s

/-! ## Query reports (R170) -/

/-- The report write of a query ends: OK with result value 32, or HOST_WRITE_ERROR (R170). -/
def State.reportWriteEnds (s : State) (w : BusWrite) : State :=
  if s.working then
    match s.admin.phase, s.admin.command with
    | .reporting, some c =>
      let a := (addrAt c.record 16).toNat
      match w with
      | .ok => (s.hostWrite a c.report).adminDecide .ok 32
      | .error landed => (s.hostWriteMasked a c.report landed).adminDecide .hostWriteError 0
    | _, _ => s
  else s

/-! ## Completion writes (R60, R138, R144) -/

/-- The slot's completion has been written: the slot becomes FREE, its ring's in-flight count falls by 1, and the fenced-outstanding flag
that its record set clears (R47, R60, R129). -/
def State.slotWritten (s : State) (l : LineId) (i : SlotId) : State :=
  let s := match s.slot l i with
    | some x => s.modRing x.ring fun q =>
        { q with inFlight := q.inFlight - 1, fenced := q.fenced && !x.fenceHeld }
    | none => s
  s.modLine l fun x => { x.setSlot i none with txnWriter := none }

/-- The writer is told that its record is written (R138). -/
def State.tellWriter (s : State) : Writer → State
  | .slot l i => s.slotWritten l i
  | .admin => { s.modRing 0 fun q => { q with inFlight := 0 } with admin := .reset }
  | .scanner l => s.modLine l fun x =>
      { x with scanner := { x.scanner with state := .idle, reservation := none, delivery := none } }
  | .notice l => s.modLine l fun x => { x with notice := none }

/-- A completion ring at the end of a write: the tail advances, the pass value flips when it wraps, the reservation is used, and no write is
in progress (R138). -/
def CRing.writeEnded (c : CRing) : CRing :=
  let tail := nextIndex (ringSize c.sizeCode) c.tail
  { c with
    tail := tail
    pass := if tail = 0 then !c.pass else c.pass
    written := c.written + 1
    reserved := c.reserved - 1
    write := none }

/-- The completion write of ring `r` ends (R138): without error byte 15 has been accepted, the ring, the coalescing and the writer take it as
one step; a bus error is a device fault with COMP_WRITE and byte 15 is left as it was. -/
def State.completionEnds (s : State) (r : CRingId) (w : BusWrite) : State :=
  if s.working then
    match s.cring r with
    | none => s
    | some c =>
      match c.write with
      | none => s
      | some wr =>
        let a := c.base.toNat + 16 * wr.place
        match w with
        | .ok => (((s.hostWrite a wr.bytes).setCRing r (some c.writeEnded)).coalesce r wr.record.urgent).tellWriter wr.writer
        | .error landed =>
          ((s.hostWriteMasked a (wr.bytes.take 15) landed).setCRing r (some { c with write := none })).deviceFault .compWrite
  else s

/-! ## The meanings -/

/-- BOOTSTRAP_READ (R173). -/
def execBootstrapRead (r : BusRead) (s : State) : Host.Outcome State Fault Refusal := .next (s.bootReadEnds r).react

/-- RECORD_READ (R42 to R45, R128). -/
def execRecordRead (l : LineId) (r : BusRead) (s : State) : Host.Outcome State Fault Refusal := .next (s.recordReadEnds l r).react

/-- ADMIN_RECORD_READ (R128, R152). -/
def execAdminRecordRead (r : BusRead) (s : State) : Host.Outcome State Fault Refusal := .next (s.adminReadEnds r).react

/-- PAYLOAD_READ (R46, R98). -/
def execPayloadRead (l : LineId) (i : SlotId) (r : BusRead) (s : State) : Host.Outcome State Fault Refusal :=
  .next (s.payloadReadEnds l i r).react

/-- DATA_WRITE (R59, R96, R97). -/
def execDataWrite (l : LineId) (i : SlotId) (w : BusWrite) (s : State) : Host.Outcome State Fault Refusal :=
  .next (s.dataWriteEnds l i w).react

/-- POOL_ENTRY_READ (R114). -/
def execPoolEntryRead (l : LineId) (r : BusRead) (s : State) : Host.Outcome State Fault Refusal := .next (s.poolReadEnds l r).react

/-- SCAN_DATA_WRITE (R114). -/
def execScanDataWrite (l : LineId) (w : BusWrite) (s : State) : Host.Outcome State Fault Refusal := .next (s.scanWriteEnds l w).react

/-- REPORT_WRITE (R170). -/
def execReportWrite (w : BusWrite) (s : State) : Host.Outcome State Fault Refusal := .next (s.reportWriteEnds w).react

/-- COMPLETION_WRITE (R138). -/
def execCompletionWrite (r : CRingId) (w : BusWrite) (s : State) : Host.Outcome State Fault Refusal :=
  .next (s.completionEnds r w).react

end Sys2Proof.Machine
end

