-- ==== Sys2Proof/Machine/LineEvents.lean ====
section
/-! DEFINITION. The events of a line's characters and of RXD: the end of the lead time, the end of a sent character, a character report, a
transition of RXD and a false start (R3, R4, R7, R65, R74 to R85).  An event of a line that is not in a condition to take it has no effect
(notes/assumptions/10.md). -/

namespace Sys2Proof.Machine

/-! ## LEAD and SENDING (R75 to R78) -/

/-- The lead timer of line `l` reaches the lead time: SENDING begins (R75). -/
def State.leadEnds (s : State) (l : LineId) : State :=
  let x := s.line l
  match x.phase, x.config, x.timers.lead with
  | some .lead, some c, some t =>
    if s.working then (s.reachUs (t + c.bitsUs c.lead)).modLine l Line.beginSending else s
  | _, _, _ => s

/-- Sending has ended without conflict: a broadcast ends with "sent", any other request is answered (R78). -/
def State.sendingEnds (s : State) (l : LineId) (a : Attempt) : State :=
  if a.addr = 0 then s.endAttempt l .sent none else s.modLine l (Line.enterAwaiting s.nowUs)

/-- The character on line `l` ends in SENDING: an abort stop comes to STOPPED (R69), a CONFLICT found before or an echo not yet reported ends
the attempt (R76), the last character ends sending (R78), and otherwise the next character begins. -/
def State.characterEnds (s : State) (l : LineId) : State :=
  let x := s.line l
  if s.working ∧ x.phase = some .sending then
    if x.abortStop then s.modLine l Line.enterStopped
    else match x.attempt with
    | none => s
    | some a =>
      let n := x.sentPos + 1
      let s := s.modLine l fun y => { y with sentPos := n, pins := { y.pins with shifting := [] } }
      if x.conflict || (x.isAsync && decide (x.echoes < n)) then s.failAttempt l .conflict
      else if n < a.frame.length then s.modLine l Line.beginCharacter
      else s.sendingEnds l a
  else s

/-! ## Character reports (R3, R74, R76, R79, R80, R83) -/

/-- A stray character is counted (R88). -/
def Line.countStray (x : Line) : Line :=
  { x with counters := { x.counters with stray := satSucc 4294967295 x.counters.stray } }

/-- A late character is counted (R88). -/
def Line.countLate (x : Line) : Line :=
  { x with counters := { x.counters with late := satSucc 4294967295 x.counters.late } }

/-- The echo agrees with the character sent: value and mark equal, no parity error and no framing error (R76). -/
def echoAgrees (a : Attempt) (k : Nat) (r : Report) : Bool :=
  r.value == byteAt a.frame k && r.mark == frameMark k && !r.parityError && !r.framingError

/-- An echo report in SENDING, paired with the oldest sent character that has no echo yet; the character on the line counts as sent once
begun.  A disagreement or a report with nothing to pair with is a CONFLICT, taken when the character on the line ends (R4, R76).
DEDUCED, unsafe: notes/assumptions/31.md. -/
def Line.takeEcho (r : Report) (x : Line) : Line :=
  match x.attempt with
  | none => x
  | some a =>
    if x.conflict then x
    else if decide (x.echoes ≤ x.sentPos) && echoAgrees a x.echoes r then { x with echoes := x.echoes + 1 }
    else { x with conflict := true }

/-- A character report in AWAITING on an async line (R79). -/
def State.awaitCharacter (s : State) (l : LineId) (a : Attempt) (r : Report) : State :=
  if r.framingError then s.failAttempt l .framing
  else if !r.mark then
    let s := s.modLine l Line.countStray
    if (s.line l).timeoutHeld then s.failAttempt l .timeout else s
  else if r.parityError then s.failAttempt l .parity
  else if r.value = responseAddr a.addr then s.modLine l (Line.enterReceiving s.nowUs r.value)
  else s.failAttempt l .protocol

/-- A character of the response is stored: the gap timer of an async line starts again, a LEN above 64 fails PROTOCOL, and a complete frame
is judged (R80, R81, R85). -/
def State.storeCharacter (s : State) (l : LineId) (a : Attempt) (v : Byte) : State :=
  match (s.line l).rx.store v with
  | .more rx => s.modLine l fun x =>
      { x with
        rx := rx
        timers := { x.timers with gap := if x.isAsync then some s.nowUs else none } }
  | .tooLong rx => (s.modLine l fun x => { x with rx := rx }).failAttempt l .protocol
  | .complete rx =>
    let j := judgeFrame a rx
    (s.modLine l fun x => { x with rx := rx }).endAttempt l j.1 j.2

/-- A character report in RECEIVING on an async line: framing, parity, mark, otherwise stored (R80). -/
def State.receiveCharacter (s : State) (l : LineId) (a : Attempt) (r : Report) : State :=
  if r.framingError then s.failAttempt l .framing
  else if r.parityError then s.failAttempt l .parity
  else if r.mark then s.failAttempt l .protocol
  else s.storeCharacter l a r.value

/-- A character report of an async line's receiver, by run state and phase (R3, R65, R74 to R83).
DESIGN CHOICE, unsafe: notes/assumptions/44.md. -/
def State.asyncReport (s : State) (l : LineId) (r : Report) : State :=
  let s := s.modLine l fun x => { x with inReception := false }
  let x := s.line l
  if x.run = .starting then s.modLine l fun y => y.countStray.restartQuiet s.nowUs
  else match x.phase with
  | none => s
  | some .idle => s.modLine l fun y => y.countStray.enterSettle s.nowUs
  | some .settle => s.modLine l fun y => y.countLate.restartQuiet s.nowUs
  | some .sending => s.modLine l (Line.takeEcho r)
  | some .lead => s.failAttempt l .conflict
  | some .awaiting =>
    match x.attempt with
    | none => s
    | some a => s.awaitCharacter l a r
  | some .receiving =>
    match x.attempt with
    | none => s
    | some a => s.receiveCharacter l a r

/-- A character shifted in on a clocked line: in the hunt 0xFF is discarded and counted as a filler, any other character is the response's
ADDR or fails PROTOCOL; in RECEIVING it is stored; in every other phase nothing is received.  At the response timeout the hunt is over and
RESPONSE_TIMEOUT ends the attempt (R5, R7, R85).
DEDUCED, safe: notes/assumptions/30.md. -/
def State.clockedCharacter (s : State) (l : LineId) (c : LineConfig) (v : Byte) : State :=
  let x := s.line l
  match x.phase, x.attempt with
  | some .awaiting, some a =>
    if c.respTimeout ≤ x.fillers then s
    else if v = 0xFF then s.modLine l fun y => { y with fillers := y.fillers + 1 }
    else if v = responseAddr a.addr then s.modLine l (Line.enterReceiving s.nowUs v)
    else s.failAttempt l .protocol
  | some .receiving, some a => s.storeCharacter l a v
  | _, _ => s

/-- A character is received on line `l` (R3, R5). -/
def State.characterArrives (s : State) (l : LineId) (raw : RawChar) : State :=
  if s.working then
    match (s.line l).config with
    | none => s
    | some c =>
      match c.mode with
      | .async => if (s.line l).inService then s.asyncReport l (reportOf c raw) else s
      | .clocked => s.clockedCharacter l c (reportOf c raw).value
  else s

/-! ## RXD and false starts (R3, R65, R80, R83, R84) -/

/-- RXD goes to space on a line whose async receiver runs: the stuck timer starts, the gap, settle and start quiet timers stop, and a
character begins unless one is in reception (R3, R65, R80, R83, R84). -/
def Line.toSpace (now : Nat) (x : Line) : Line :=
  { x with
    inReception := true
    timers := { x.timers.stopOnSpace with stuck := some now } }

/-- RXD goes back to mark on a line whose async receiver runs: the stuck timer stops, and the quiet timers start where no character is in
reception (R65, R83, R84). -/
def Line.toMark (now : Nat) (x : Line) : Line :=
  { x with timers := { x.timers with stuck := none } }.restartQuiet now

/-- RXD of line `l` takes a level; a level it has already is no transition (R3, R84).
DESIGN CHOICE, safe: notes/assumptions/36.md. -/
def State.rxdTakes (s : State) (l : LineId) (level : Level) : State :=
  let x := s.line l
  if x.pins.rxd = level then s
  else
    s.modLine l fun y =>
      let z := { y with pins := { y.pins with rxd := level } }
      if z.receiverRuns && s.working then
        match level with
        | .space => z.toSpace s.nowUs
        | .mark => z.toMark s.nowUs
      else z

/-- The start bit in reception is found at mark: the character is discarded without a report, the receiver hunts again, the quiet timers start
again, and a response timeout held for the reception is taken (R3, R79, R83).
DEDUCED, unsafe: notes/assumptions/33.md. -/
def State.falseStartTaken (s : State) (l : LineId) : State :=
  let x := s.line l
  if s.working && x.receiverRuns && x.inReception then
    let s := s.modLine l fun y => { y with inReception := false }.restartQuiet s.nowUs
    if (s.line l).phase = some .awaiting ∧ (s.line l).timeoutHeld then s.failAttempt l .timeout else s
  else s

/-! ## The meanings -/

/-- LEAD_TIME (R75). -/
def execLeadTime (l : LineId) (s : State) : Host.Outcome State Fault Refusal := .next (s.leadEnds l).react

/-- CHARACTER_SENT (R69, R76, R78). -/
def execCharacterSent (l : LineId) (s : State) : Host.Outcome State Fault Refusal := .next (s.characterEnds l).react

/-- CHARACTER_RECEIVED (R3, R5, R7, R74 to R85). -/
def execCharacterReceived (l : LineId) (raw : RawChar) (s : State) : Host.Outcome State Fault Refusal :=
  .next (s.characterArrives l raw).react

/-- RXD_TRANSITION (R3, R65, R80, R83, R84). -/
def execRxdTransition (l : LineId) (level : Level) (s : State) : Host.Outcome State Fault Refusal :=
  .next (s.rxdTakes l level).react

/-- FALSE_START (R3, R79, R83). -/
def execFalseStart (l : LineId) (s : State) : Host.Outcome State Fault Refusal := .next (s.falseStartTaken l).react

end Sys2Proof.Machine
end

