-- ==== Sys2Proof/Machine/TimeEvents.lean ====
section
/-! DEFINITION. The events that device time brings about: the expiries of a line's timers, the end of a hold-off, a due time and the
expiry of a coalescing timer (R28, R65, R66, R79, R80, R83 to R85, R108, R145).  Each is taken when device time has reached its moment
(notes/assumptions/6.md); an expiry of a timer that does not run has no effect (notes/assumptions/10.md). -/

namespace Sys2Proof.Machine

/-! ## The timers of an exchange (R79, R80, R83, R85) -/

/-- The response timeout of line `l` is reached in AWAITING: TIMEOUT; on an async line the expiry is held while a character is in reception,
on a clocked line it is the filler count that has reached the response timeout (R79, R85). -/
def State.responseExpires (s : State) (l : LineId) : State :=
  let x := s.line l
  if s.working ∧ x.phase = some .awaiting then
    match x.config with
    | none => s
    | some c =>
      match c.mode with
      | .clocked => if c.respTimeout ≤ x.fillers then s.failAttempt l .timeout else s
      | .async =>
        match x.timers.response with
        | none => s
        | some t =>
          let s := s.reachUs (t + c.charsUs c.respTimeout)
          if x.inReception then
            s.modLine l fun y => { y with timeoutHeld := true, timers := { y.timers with response := none } }
          else s.failAttempt l .timeout
  else s

/-- A timer of line `l` that runs on configured time: the line's configuration and the moment at which the timer, started at the time the
selector gives, reaches `n` character times. -/
def Line.expiry (x : Line) (timer : Timers → Option Nat) (chars : LineConfig → Nat) : Option Nat :=
  match x.config, timer x.timers with
  | some c, some t => some (t + c.charsUs (chars c))
  | _, _ => none

/-- The gap timer of line `l` reaches the gap limit in RECEIVING: TRUNCATED (R80). -/
def State.gapExpires (s : State) (l : LineId) : State :=
  match (s.line l).expiry (·.gap) (·.gapLimit) with
  | none => s
  | some t =>
    if s.working ∧ (s.line l).phase = some .receiving then (s.reachUs t).failAttempt l .truncated else s

/-- The settle timer of line `l`, or the clocked settle wait, reaches the settle time: IDLE (R83). -/
def State.settleExpires (s : State) (l : LineId) : State :=
  match (s.line l).expiry (·.settle) (·.settle) with
  | none => s
  | some t =>
    if s.working ∧ (s.line l).phase = some .settle then (s.reachUs t).modLine l Line.enterIdle else s

/-- The settle limit timer of line `l` reaches 256 character times: FAULTED with NOT_QUIET (R71, R83). -/
def State.settleLimitExpires (s : State) (l : LineId) : State :=
  match (s.line l).expiry (·.settleLimit) (fun _ => Config.settleLimitChars) with
  | none => s
  | some t =>
    if s.working ∧ (s.line l).phase = some .settle ∧ (s.line l).isAsync then (s.reachUs t).faultLine l .notQuiet else s

/-! ## The timers of STARTING and the stuck timer (R65, R66, R84) -/

/-- The start quiet timer of line `l` reaches 16 character times: RUNNING (R65, R67). -/
def State.startQuietExpires (s : State) (l : LineId) : State :=
  match (s.line l).expiry (·.startQuiet) (fun _ => Config.startQuietChars) with
  | none => s
  | some t =>
    if s.working ∧ (s.line l).run = .starting ∧ (s.line l).isAsync then (s.reachUs t).modLine l Line.enterRunning else s

/-- The start limit timer of line `l` reaches 200 ms: FAULTED with NOT_QUIET (R65, R71); it has no effect on a clocked line (R66). -/
def State.startLimitExpires (s : State) (l : LineId) : State :=
  match (s.line l).timers.startLimit with
  | none => s
  | some t =>
    if s.working ∧ (s.line l).run = .starting ∧ (s.line l).isAsync then
      (s.reachUs (t + Config.startLimitUs)).faultLine l .notQuiet
    else s

/-- The wait of one settle time of a clocked line in STARTING ends: RUNNING (R66, R67). -/
def State.clockedWaitEnds (s : State) (l : LineId) : State :=
  match (s.line l).expiry (·.settle) (·.settle) with
  | none => s
  | some t =>
    if s.working ∧ (s.line l).run = .starting ∧ (s.line l).isClocked then (s.reachUs t).modLine l Line.enterRunning else s

/-- The line comes to STOPPED from FAULTED at once where the device is DISABLING, as every FAULTED line does there (R72).
DEDUCED, unsafe: notes/assumptions/32.md. -/
def State.stopIfDisabling (s : State) (l : LineId) : State :=
  if s.device = .disabling then s.modLine l fun x => { x.enterStopped with linePending := false } else s

/-- The stuck timer of line `l` reaches 64 character times: FAULTED with STUCK (R71, R84). -/
def State.stuckExpires (s : State) (l : LineId) : State :=
  match (s.line l).expiry (·.stuck) (fun _ => Config.stuckLimitChars) with
  | none => s
  | some t =>
    if s.working ∧ (s.line l).receiverRuns then ((s.reachUs t).faultLine l .stuck).stopIfDisabling l else s

/-! ## Stations and completion rings (R28, R108, R145) -/

/-- Device time reaches the hold-until of entry `e`: the hold-off ends (R28). -/
def State.holdOffExpires (s : State) (e : EntryId) : State :=
  match s.station e with
  | none => s
  | some x =>
    match x.holdUntil with
    | none => s
    | some t => if s.working then (s.reachUs (t * 1000)).endHoldOff e else s

/-- Device time reaches the next due time of entry `e`: the station is due, and its Scanner looks for work (R107 to R109). -/
def State.dueReached (s : State) (e : EntryId) : State :=
  match s.station e with
  | none => s
  | some x => if s.working then s.reachUs (x.nextDue * 1000) else s

/-- The coalescing timer of ring `r` reaches t: the ring's cause is set (R145). -/
def State.coalescingExpires (s : State) (r : CRingId) : State :=
  match s.cring r with
  | none => s
  | some c =>
    match c.timer with
    | none => s
    | some t => if s.working then (s.reachUs (t + c.time)).signalRing r else s

/-! ## The meanings -/

/-- RESPONSE_TIMEOUT (R79, R85). -/
def execResponseTimeout (l : LineId) (s : State) : Host.Outcome State Fault Refusal := .next (s.responseExpires l).react

/-- GAP_LIMIT (R80). -/
def execGapLimit (l : LineId) (s : State) : Host.Outcome State Fault Refusal := .next (s.gapExpires l).react

/-- SETTLE_TIME (R83). -/
def execSettleTime (l : LineId) (s : State) : Host.Outcome State Fault Refusal := .next (s.settleExpires l).react

/-- SETTLE_LIMIT (R83). -/
def execSettleLimit (l : LineId) (s : State) : Host.Outcome State Fault Refusal := .next (s.settleLimitExpires l).react

/-- START_QUIET (R65, R67). -/
def execStartQuiet (l : LineId) (s : State) : Host.Outcome State Fault Refusal := .next (s.startQuietExpires l).react

/-- START_LIMIT (R65). -/
def execStartLimit (l : LineId) (s : State) : Host.Outcome State Fault Refusal := .next (s.startLimitExpires l).react

/-- STUCK_LIMIT (R84). -/
def execStuckLimit (l : LineId) (s : State) : Host.Outcome State Fault Refusal := .next (s.stuckExpires l).react

/-- CLOCKED_START_WAIT (R66, R67). -/
def execClockedStartWait (l : LineId) (s : State) : Host.Outcome State Fault Refusal := .next (s.clockedWaitEnds l).react

/-- HOLD_OFF_END (R28). -/
def execHoldOffEnd (e : EntryId) (s : State) : Host.Outcome State Fault Refusal := .next (s.holdOffExpires e).react

/-- NEXT_DUE (R108). -/
def execNextDue (e : EntryId) (s : State) : Host.Outcome State Fault Refusal := .next (s.dueReached e).react

/-- COALESCING_TIMER (R145). -/
def execCoalescingTimer (r : CRingId) (s : State) : Host.Outcome State Fault Refusal := .next (s.coalescingExpires r).react

end Sys2Proof.Machine
end

