-- ==== Sys2Proof/Machine/AdminCommands.lean ====
section
/-! DEFINITION. The seventeen admin commands as the end of ring 0's record read with a record of that kind whose zero fields are zero
(chapter 9, section 11.2). -/

namespace Sys2Proof.Machine

/-- The end of ring 0's record read with the record of a command (section 11.2, R152). -/
def State.takeCommand (s : State) (tag : Half) (cmd : AdminCmd) : State := s.takeAdmin (encodeAdmin tag cmd) (some cmd)

/-- RING_CREATE (R156). -/
def execRingCreate (tag : Half) (ring sizeCode line cls cring : Byte) (base : Addr) (s : State) : Host.Outcome State Fault Refusal :=
  .next (s.takeCommand tag (.ringCreate ring sizeCode line cls cring base)).react

/-- RING_PAUSE (R157). -/
def execRingPause (tag : Half) (ring : Byte) (s : State) : Host.Outcome State Fault Refusal :=
  .next (s.takeCommand tag (.ringPause ring)).react

/-- RING_RESUME (R157). -/
def execRingResume (tag : Half) (ring cls : Byte) (s : State) : Host.Outcome State Fault Refusal :=
  .next (s.takeCommand tag (.ringResume ring cls)).react

/-- RING_DELETE (R158). -/
def execRingDelete (tag : Half) (ring mode : Byte) (s : State) : Host.Outcome State Fault Refusal :=
  .next (s.takeCommand tag (.ringDelete ring mode)).react

/-- CRING_CREATE (R159). -/
def execCringCreate (tag : Half) (ring sizeCode n : Byte) (ie : Bool) (t : Half) (base : Addr) (s : State) : Host.Outcome State Fault Refusal :=
  .next (s.takeCommand tag (.cringCreate ring sizeCode n ie t base)).react

/-- CRING_POLICY (R160). -/
def execCringPolicy (tag : Half) (ring n : Byte) (ie : Bool) (t : Half) (s : State) : Host.Outcome State Fault Refusal :=
  .next (s.takeCommand tag (.cringPolicy ring n ie t)).react

/-- CRING_DELETE (R161). -/
def execCringDelete (tag : Half) (ring : Byte) (s : State) : Host.Outcome State Fault Refusal :=
  .next (s.takeCommand tag (.cringDelete ring)).react

/-- POOL_CREATE (R162). -/
def execPoolCreate (tag : Half) (sizeCode : Byte) (base : Addr) (s : State) : Host.Outcome State Fault Refusal :=
  .next (s.takeCommand tag (.poolCreate sizeCode base)).react

/-- POOL_DELETE (R163). -/
def execPoolDelete (tag : Half) (s : State) : Host.Outcome State Fault Refusal :=
  .next (s.takeCommand tag .poolDelete).react

/-- LINE_CONFIG (R164). -/
def execLineConfig (tag : Half) (line : Byte) (fields : LineFields) (s : State) : Host.Outcome State Fault Refusal :=
  .next (s.takeCommand tag (.lineConfig line fields)).react

/-- LINE_START (R165). -/
def execLineStart (tag : Half) (line : Byte) (s : State) : Host.Outcome State Fault Refusal :=
  .next (s.takeCommand tag (.lineStart line)).react

/-- LINE_STOP (R166). -/
def execLineStop (tag : Half) (line mode : Byte) (s : State) : Host.Outcome State Fault Refusal :=
  .next (s.takeCommand tag (.lineStop line mode)).react

/-- STATION_ATTACH (R167). -/
def execStationAttach (tag : Half) (line addr : Byte) (period : Half) (s : State) : Host.Outcome State Fault Refusal :=
  .next (s.takeCommand tag (.stationAttach line addr period)).react

/-- STATION_DETACH (R168). -/
def execStationDetach (tag : Half) (line addr : Byte) (s : State) : Host.Outcome State Fault Refusal :=
  .next (s.takeCommand tag (.stationDetach line addr)).react

/-- STATION_SCAN (R169). -/
def execStationScan (tag : Half) (line addr : Byte) (period : Half) (s : State) : Host.Outcome State Fault Refusal :=
  .next (s.takeCommand tag (.stationScan line addr period)).react

/-- STATION_QUERY (R170). -/
def execStationQuery (tag : Half) (index : Byte) (clear : Bool) (buf : Addr) (s : State) : Host.Outcome State Fault Refusal :=
  .next (s.takeCommand tag (.stationQuery index clear buf)).react

/-- LINE_QUERY (R170). -/
def execLineQuery (tag : Half) (line part : Byte) (clear : Bool) (buf : Addr) (s : State) : Host.Outcome State Fault Refusal :=
  .next (s.takeCommand tag (.lineQuery line part clear buf)).react

end Sys2Proof.Machine
end

