-- ==== Sys2Proof/Machine/Dispatch.lean ====
section
/-! DEFINITION. exec: one arm for each command and event of spec/opcode_table.json, each a direct call of its meaning. -/

namespace Sys2Proof.Machine

def exec (i : Instr) (s : State) : Host.Outcome State Fault Refusal :=
  match i with
  | .powerOnReset => Sys2Proof.Machine.execPowerOnReset s
  | .hardReset => Sys2Proof.Machine.execHardReset s
  | .enable value => Sys2Proof.Machine.execEnable value s
  | .intEnable value => Sys2Proof.Machine.execIntEnable value s
  | .post ring tail => Sys2Proof.Machine.execPost ring tail s
  | .release ring head => Sys2Proof.Machine.execRelease ring head s
  | .intcause value => Sys2Proof.Machine.execIntcause value s
  | .registerWrite reg value => Sys2Proof.Machine.execRegisterWrite reg value s
  | .bootstrapRead r => Sys2Proof.Machine.execBootstrapRead r s
  | .recordRead line r => Sys2Proof.Machine.execRecordRead line r s
  | .ringCreate tag ring sizeCode line cls cring base => Sys2Proof.Machine.execRingCreate tag ring sizeCode line cls cring base s
  | .ringPause tag ring => Sys2Proof.Machine.execRingPause tag ring s
  | .ringResume tag ring cls => Sys2Proof.Machine.execRingResume tag ring cls s
  | .ringDelete tag ring mode => Sys2Proof.Machine.execRingDelete tag ring mode s
  | .cringCreate tag ring sizeCode n ie t base => Sys2Proof.Machine.execCringCreate tag ring sizeCode n ie t base s
  | .cringPolicy tag ring n ie t => Sys2Proof.Machine.execCringPolicy tag ring n ie t s
  | .cringDelete tag ring => Sys2Proof.Machine.execCringDelete tag ring s
  | .poolCreate tag sizeCode base => Sys2Proof.Machine.execPoolCreate tag sizeCode base s
  | .poolDelete tag => Sys2Proof.Machine.execPoolDelete tag s
  | .lineConfig tag line fields => Sys2Proof.Machine.execLineConfig tag line fields s
  | .lineStart tag line => Sys2Proof.Machine.execLineStart tag line s
  | .lineStop tag line mode => Sys2Proof.Machine.execLineStop tag line mode s
  | .stationAttach tag line addr period => Sys2Proof.Machine.execStationAttach tag line addr period s
  | .stationDetach tag line addr => Sys2Proof.Machine.execStationDetach tag line addr s
  | .stationScan tag line addr period => Sys2Proof.Machine.execStationScan tag line addr period s
  | .stationQuery tag index clear buf => Sys2Proof.Machine.execStationQuery tag index clear buf s
  | .lineQuery tag line part clear buf => Sys2Proof.Machine.execLineQuery tag line part clear buf s
  | .payloadRead line slot r => Sys2Proof.Machine.execPayloadRead line slot r s
  | .dataWrite line slot w => Sys2Proof.Machine.execDataWrite line slot w s
  | .poolEntryRead line r => Sys2Proof.Machine.execPoolEntryRead line r s
  | .scanDataWrite line w => Sys2Proof.Machine.execScanDataWrite line w s
  | .reportWrite w => Sys2Proof.Machine.execReportWrite w s
  | .completionWrite cring w => Sys2Proof.Machine.execCompletionWrite cring w s
  | .leadTime line => Sys2Proof.Machine.execLeadTime line s
  | .characterSent line => Sys2Proof.Machine.execCharacterSent line s
  | .characterReceived line c => Sys2Proof.Machine.execCharacterReceived line c s
  | .rxdTransition line level => Sys2Proof.Machine.execRxdTransition line level s
  | .responseTimeout line => Sys2Proof.Machine.execResponseTimeout line s
  | .gapLimit line => Sys2Proof.Machine.execGapLimit line s
  | .settleTime line => Sys2Proof.Machine.execSettleTime line s
  | .settleLimit line => Sys2Proof.Machine.execSettleLimit line s
  | .startQuiet line => Sys2Proof.Machine.execStartQuiet line s
  | .startLimit line => Sys2Proof.Machine.execStartLimit line s
  | .stuckLimit line => Sys2Proof.Machine.execStuckLimit line s
  | .clockedStartWait line => Sys2Proof.Machine.execClockedStartWait line s
  | .holdOffEnd entry => Sys2Proof.Machine.execHoldOffEnd entry s
  | .nextDue entry => Sys2Proof.Machine.execNextDue entry s
  | .coalescingTimer cring => Sys2Proof.Machine.execCoalescingTimer cring s
  | .falseStart line => Sys2Proof.Machine.execFalseStart line s
  | .adminRecordRead r => Sys2Proof.Machine.execAdminRecordRead r s

end Sys2Proof.Machine
end

