-- ==== Sys2Proof/Machine/Step.lean ====
section
/-! DEFINITION. One step: the command at the front of the queue is taken, or the block idles; and the queue with the command of a table word
put at its front. -/

namespace Sys2Proof.Machine

/-- The Timebase counts one microsecond (R171).  It is what a step on an empty queue does (DESIGN CHOICE, notes/assumptions/8.md). -/
def State.tick (s : State) : State := { s with deviceTime := s.deviceTime + 1 }

/-- One step: exec on the command at the front of the queue with the queue's rest; on an empty queue device time advances by 1 µs and
nothing else happens. -/
def step (s : State) : Host.Outcome State Fault Refusal :=
  match s.pending with
  | i :: rest => exec i { s with pending := rest }
  | [] => .next s.tick

/-- The state with the command of a table word at the front of its queue, unchanged where the word spells none
(notes/assumptions/4.md). -/
def State.withFetchWord (s : State) (nbits w : Nat) : State :=
  match decodeTableWord nbits w with
  | some i => { s with pending := i :: s.pending }
  | none => s

end Sys2Proof.Machine
end

