-- ==== Sys2Proof/Safety.lean ====
section
/-! DEFINITION. What is safe about a state of the 4808, in the terms the statements use: the laws that every step keeps (R18, R31, R39, R62,
R63, R72, R73, R77, R106, R122, R123, R136, R140). -/

namespace Sys2Proof.Machine

/-! ## Host memory -/

/-- The image of the bytes the device has written is in its canonical form. -/
def State.MemOk (s : State) : Prop := memWf s.hostMem = true

/-! ## The station table (R18, R31) -/

/-- Every entry in use has an address 1 to 126, and at most one entry in use has a (line, address) (R18). -/
def State.KeysOk (s : State) : Prop :=
  (∀ e, ∀ x ∈ s.station e, 1 ≤ x.addr ∧ x.addr ≤ 126)
  ∧ ∀ e f, ∀ x ∈ s.station e, ∀ y ∈ s.station f, x.line = y.line → x.addr = y.addr → e = f

/-- An entry is in its line's notice queue exactly when its notice-pending is set, and it appears there at most once (R31). -/
def State.QueuesOk (s : State) : Prop :=
  ∀ l, (s.line l).noticeQueue.Nodup
    ∧ ∀ e, e ∈ (s.line l).noticeQueue ↔ ∃ x ∈ s.station e, x.line = l ∧ x.noticePending = true

/-! ## Lines (R6, R39, R63, R68, R73, R77) -/

/-- The phase is one in which the line's attempt is in progress: from LEAD to the entry into SETTLE. -/
def Line.exchanging (x : Line) : Bool :=
  x.phase == some .lead || x.phase == some .sending || x.phase == some .awaiting || x.phase == some .receiving

/-- The laws of one line: a phase is present in RUNNING and STOPPING only and a fault cause in FAULTED only (R63); DE is on in LEAD and
SENDING only (R73); SEL is asserted on a clocked line from LEAD to the entry into SETTLE only (R6); an attempt is in progress in those phases
only; an abort stop waits in SENDING with no attempt in progress (R69); an ACTIVE slot is the requester of the line's one attempt (R39); and
the conflict count is at most 3, and below 3 on a line in service (R77). -/
def Line.Ok (x : Line) : Prop :=
  (x.phase.isSome = true ↔ x.run = .running ∨ x.run = .stopping)
  ∧ (x.faultCause.isSome = true ↔ x.run = .faulted)
  ∧ (x.pins.de = true ↔ x.phase = some .lead ∨ x.phase = some .sending)
  ∧ (x.pins.sel = true ↔ x.isClocked = true ∧ x.exchanging = true)
  ∧ (x.attempt.isSome = true → x.exchanging = true)
  ∧ (x.abortStop = true → x.phase = some .sending ∧ x.attempt = none ∧ x.run = .stopping)
  ∧ (∀ i, ∀ y ∈ x.slot i, y.state = .active → x.attempt.map (·.requester) = some (.slot i))
  ∧ x.conflictCount ≤ Config.conflictLimit
  ∧ (x.inService = true → x.conflictCount < Config.conflictLimit)

/-- Every line keeps the laws of a line. -/
def State.LinesOk (s : State) : Prop := ∀ l, (s.line l).Ok

/-- A Scanner holds a reservation exactly when it is not IDLE, a polled station exactly in POLLING and a delivery exactly in DELIVERING
(R106). -/
def Scanner.Ok (x : Scanner) : Prop :=
  (x.reservation.isSome = true ↔ x.state ≠ .idle)
  ∧ (x.polled.isSome = true ↔ x.state = .polling)
  ∧ (x.delivery.isSome = true ↔ x.state = .delivering)

/-- Every Scanner keeps its laws. -/
def State.ScannersOk (s : State) : Prop := ∀ l, (s.line l).scanner.Ok

/-- An attempt in progress that a slot asked for finds that slot ACTIVE (R39). -/
def State.AttemptsOk (s : State) : Prop :=
  ∀ l, ∀ a ∈ (s.line l).attempt, ∀ i, a.requester = .slot i → ∃ y ∈ s.slot l i, y.state = .active

/-! ## The device at rest (R62, R72, R176) -/

/-- A line with nothing in hand: STOPPED, driver off, every slot FREE, no read, no poll, no delivery and no write. -/
def Line.Rests (x : Line) : Prop :=
  x.run = .stopped ∧ x.phase = none ∧ x.attempt = none ∧ x.pins.de = false ∧ x.pins.sel = false ∧ x.allFree = true
    ∧ x.read = none ∧ x.txnWriter = none ∧ x.scanner.state = .idle ∧ x.notice = none

/-- In OFF, LOADING and FAULTED every line rests and no completion write is in progress; in OFF and LOADING there is no context of any ring,
no pool and no station entry in use (R62, R72, R113, R122, R136). -/
def State.RestOk (s : State) : Prop :=
  s.working = false →
    (∀ l, (s.line l).Rests)
    ∧ (∀ r, ∀ c ∈ s.cring r, c.write = none ∧ c.waiting = [])
    ∧ (s.device ≠ .faulted →
        (∀ r, s.ring r = none) ∧ (∀ r, s.cring r = none) ∧ s.pool = none ∧ (∀ e, s.station e = none)
          ∧ s.admin = Admin.reset)

/-! ## Rings (R122, R123, R136, R137) -/

/-- The indices of a submission ring lie below its size, 4 to 4096 places (R123). -/
def SubRing.Ok (x : SubRing) : Prop :=
  2 ≤ x.sizeCode ∧ x.sizeCode ≤ 12 ∧ x.head < ringSize x.sizeCode ∧ x.tail < ringSize x.sizeCode

/-- The indices of a completion ring lie below its size, its tail is its head plus written-unreleased modulo the size, and its threshold is 1
to 255 with an unsignalled count of at most 255 (R136, R137). -/
def CRing.Ok (c : CRing) : Prop :=
  3 ≤ c.sizeCode ∧ c.sizeCode ≤ 13 ∧ c.head < ringSize c.sizeCode
    ∧ c.tail = (c.head + c.written) % ringSize c.sizeCode
    ∧ 1 ≤ c.threshold ∧ c.threshold ≤ 255 ∧ c.unsignalled ≤ 255

/-- The indices of the pool ring lie below its size, 4 to 1024 entries (R113). -/
def Pool.Ok (p : Pool) : Prop :=
  2 ≤ p.sizeCode ∧ p.sizeCode ≤ 10 ∧ p.head < ringSize p.sizeCode ∧ p.tail < ringSize p.sizeCode

/-- Every ring context keeps its index laws. -/
def State.RingsOk (s : State) : Prop :=
  (∀ r, ∀ x ∈ s.ring r, x.Ok) ∧ (∀ r, ∀ c ∈ s.cring r, c.Ok) ∧ ∀ p ∈ s.pool, p.Ok

/-! ## The in-flight law (R39, R129) -/

/-- Slot `i` of the line holds a record of ring `r`. -/
def Line.holdsOf (x : Line) (r : RingId) (i : SlotId) : Bool :=
  match x.slot i with
  | some y => y.ring == r
  | none => false

/-- The number of non-FREE slots of a line that hold records of ring `r`. -/
def Line.slotsOf (x : Line) (r : RingId) : Nat := ((List.finRange 8).filter (x.holdsOf r)).length

/-- While the device works: ring 0 is bound to no line; every record in a slot or being read is of an existing ring bound to that line; and a
ring's in-flight count is the number of its bound line's non-FREE slots that hold its records, at most 4, and below 4 while a read is in
progress (R39, R40, R129, R133). -/
def State.InFlightOk (s : State) : Prop :=
  s.working = true →
    (∀ x ∈ s.ring 0, x.line = none)
    ∧ (∀ l i, ∀ y ∈ s.slot l i, ∃ x ∈ s.ring y.ring, x.line = some l)
    ∧ (∀ l, ∀ rd ∈ (s.line l).read, ∃ x ∈ s.ring rd.ring, x.line = some l ∧ x.inFlight < Config.slotsPerRing)
    ∧ ∀ r, ∀ x ∈ s.ring r, ∀ l, x.line = some l →
        x.inFlight = (s.line l).slotsOf r ∧ x.inFlight ≤ Config.slotsPerRing

/-! ## The capacity law of completion rings (R140) -/

/-- A submission ring's records complete into ring `r` (R130). -/
def State.completesInto (s : State) (r : CRingId) (q : RingId) : Bool :=
  match s.ring q with
  | some x => x.cring == r
  | none => false

/-- The reservations that line `l` holds in ring `r`: its record read, its non-FREE slots, its Scanner and its notice writer (R140). -/
def State.lineHolds (s : State) (r : CRingId) (l : LineId) : Nat :=
  let x := s.line l
  ((List.finRange 8).filter fun i => match x.slot i with
      | some y => s.completesInto r y.ring
      | none => false).length
  + (match x.read with
      | some rd => if s.completesInto r rd.ring then 1 else 0
      | none => 0)
  + (if x.scanner.reservation = some r then 1 else 0)
  + (match x.notice with
      | some n => if n.cring = r then 1 else 0
      | none => 0)

/-- The reservations held in ring `r` by all claimants (R140). -/
def State.holders (s : State) (r : CRingId) : Nat :=
  ((List.finRange 8).map (s.lineHolds r)).sum + (if r = 0 ∧ s.admin.phase ≠ .idle then 1 else 0)

/-- A writer that has requested or begun its write into ring `r` holds a reservation there (R138). -/
def State.WriterOk (s : State) (r : CRingId) : Writer → Prop
  | .slot l i => (s.line l).txnWriter = some i ∧ ∃ y ∈ s.slot l i, s.completesInto r y.ring = true ∧ y.state = .finishing
  | .admin => r = 0 ∧ s.admin.phase = .completing ∧ s.admin.requested = true
  | .scanner l => (s.line l).scanner.reservation = some r ∧ (s.line l).scanner.state = .delivering
      ∧ ∃ d ∈ (s.line l).scanner.delivery, d.status.isSome = true
  | .notice l => ∃ n ∈ (s.line l).notice, n.cring = r

/-- The writers of a completion ring, the one writing first and then those waiting in the order of their requests (R138). -/
def CRing.writers (c : CRing) : List Writer :=
  (match c.write with
    | some w => [w.writer]
    | none => []) ++ c.waiting

/-- While the device works: in each completion ring the written-unreleased records plus the reservations do not exceed the size, the
reservations are exactly those its claimants hold, every writer holds one and none stands twice; in an ABSENT ring none is held (R138, R140). -/
def State.CapacityOk (s : State) : Prop :=
  s.working = true →
    (∀ r, s.cring r = none → s.holders r = 0)
    ∧ ∀ r, ∀ c ∈ s.cring r,
      c.written + c.reserved ≤ ringSize c.sizeCode
      ∧ c.reserved = s.holders r
      ∧ c.writers.Nodup
      ∧ ∀ w ∈ c.writers, s.WriterOk r w

/-- The laws of the part that hold together: lines, attempts, Scanners, rest, in-flight counts and reservations. -/
def State.LedgerOk (s : State) : Prop :=
  s.LinesOk ∧ s.AttemptsOk ∧ s.ScannersOk ∧ s.RestOk ∧ s.InFlightOk ∧ s.CapacityOk

/-! ## What the units' own acts leave as it is (R40, R50, R60, R109, R117, R132, R138) -/

/-- What the units' own acts may make of a slot: a fenced slot leaves WAITING, a READY slot is granted, and nothing else of it changes
(R47, R52). -/
structure Slot.After (x y : Slot) : Prop where
  rest : y = { x with state := y.state, syncAttempt := y.syncAttempt, outcome := y.outcome }
  state : y.state = x.state
    ∨ (x.state = .waiting ∧ (y.state = .ready ∨ y.state = .deferred ∨ y.state = .finishing ∨ y.state = .active))
    ∨ (x.state = .ready ∧ y.state = .active)
  outcome : y.outcome = x.outcome ∨ (x.state = .waiting ∧ y.state = .finishing)
  syncAttempt : y.syncAttempt = x.syncAttempt ∨ (x.state ≠ .active ∧ y.state = .active)

/-- What the units' own acts may make of an exchange: an idle line may be granted, a line may come to STOPPED, and on a line that does
neither nothing of the exchange changes (R50, R68). -/
structure Line.ExchangeAfter (x y : Line) : Prop where
  run : y.run = x.run ∨ (y.run = .stopped ∧ (x.run = .stopping ∨ x.run = .faulted))
  phase : y.phase = x.phase
    ∨ (x.phase = some .idle ∧ (y.phase = some .lead ∨ y.phase = some .sending))
    ∨ (y.run = .stopped ∧ x.run ≠ .stopped ∧ y.phase = none)
  quiet : y.run = x.run → y.phase = x.phase →
    y.faultCause = x.faultCause ∧ y.attempt = x.attempt ∧ y.sentPos = x.sentPos ∧ y.echoes = x.echoes ∧ y.conflict = x.conflict
      ∧ y.abortStop = x.abortStop ∧ y.rx = x.rx ∧ y.timers = x.timers ∧ y.timeoutHeld = x.timeoutHeld
      ∧ y.fillers = x.fillers ∧ y.inReception = x.inReception ∧ y.pins = x.pins

/-- What the units' own acts may make of a Line Engine. -/
structure Line.After (x y : Line) : Prop where
  exchange : x.ExchangeAfter y
  config : y.config = x.config
  lastFault : y.lastFault = x.lastFault
  conflictCount : y.conflictCount = x.conflictCount
  nextAge : y.nextAge = x.nextAge
  rxd : y.pins.rxd = x.pins.rxd
  counters : y.counters =
    { x.counters with attempts := y.counters.attempts, scanStarves := y.counters.scanStarves }
  freeSlots : ∀ i, x.slot i = none → y.slot i = none
  slots : ∀ i, ∀ a ∈ x.slot i, ∃ b ∈ y.slot i, a.After b
  read : y.read = x.read ∨ x.read = none
  txnWriter : y.txnWriter = x.txnWriter ∨ x.txnWriter = none
  notice : y.notice = x.notice ∨ x.notice = none
  linePending : y.linePending = x.linePending ∨ y.linePending = false
  noticeQueue : y.noticeQueue <:+ x.noticeQueue
  delivery : y.scanner.delivery = x.scanner.delivery
  poll : x.scanner.state = .polling ∨ x.scanner.state = .delivering →
    y.scanner = { x.scanner with refused := y.scanner.refused }

/-- What the units' own acts may make of a completion ring: reservations are claimed and returned and writes requested and begun; a write in
progress goes on (R138, R140). -/
structure CRing.After (x y : CRing) : Prop where
  rest : y = { x with reserved := y.reserved, write := y.write, waiting := y.waiting }
  write : x.write ≠ none → y.write = x.write

/-- What the units' own acts may make of a station entry: its notice may be taken (R32, R117). -/
structure Station.After (x y : Station) : Prop where
  rest : y = { x with noticePending := y.noticePending, changes := y.changes }
  notice : y = x ∨ (y.noticePending = false ∧ y.changes = 0)

/-- What the units' own acts may make of the Admin Processor: IDLE may begin a record read, WAITING may end, and a completion may be
requested; the record of the command in progress stays (R134, R152, R155). -/
structure Admin.After (x y : Admin) : Prop where
  phase : y.phase = x.phase ∨ (x.phase = .idle ∧ y.phase = .reading) ∨ (x.phase = .waiting ∧ y.phase = .completing)
  record : x.phase ≠ .idle → y.command.map (·.record) = x.command.map (·.record)
  decided : x.phase = .completing → y.command = x.command
  busy : x.phase = .reading ∨ x.phase = .reporting → y = x

/-- What the units' own acts leave of the whole state while the part does not reach OFF: every register and cause, device time, host memory,
the pool and the queue; of rings only a drained one goes, no completion ring and no station entry comes or goes. -/
structure State.Kept (u t : State) : Prop where
  device : t.device = u.device
  enable : t.enable = u.enable
  intEnable : t.intEnable = u.intEnable
  bootAddr : t.bootAddr = u.bootAddr
  resetCause : t.resetCause = u.resetCause
  faultCode : t.faultCode = u.faultCode
  postError : t.postError = u.postError
  intcause : t.intcause = u.intcause
  deviceTime : t.deviceTime = u.deviceTime
  loadAddr : t.loadAddr = u.loadAddr
  pool : t.pool = u.pool
  hostMem : t.hostMem = u.hostMem
  pending : t.pending = u.pending
  rings : ∀ r, t.ring r = u.ring r ∨ ∃ x ∈ u.ring r, x.state = .draining ∧ t.ring r = none
  noCRings : ∀ r, u.cring r = none → t.cring r = none
  crings : ∀ r, ∀ x ∈ u.cring r, ∃ y ∈ t.cring r, x.After y
  freeStations : ∀ e, u.station e = none → t.station e = none
  stations : ∀ e, ∀ x ∈ u.station e, ∃ y ∈ t.station e, x.After y
  lines : ∀ l, (u.line l).After (t.line l)
  admin : u.admin.After t.admin

/-- What a part in DISABLING has become that has reached OFF by the units' own acts: every context gone, the registers kept as R175 says, and
where ENABLE was 1 the next load begun or failed at its address (R171, R173, R175). -/
structure State.OffFrom (u t : State) : Prop where
  enable : t.enable = u.enable
  intEnable : t.intEnable = u.intEnable
  bootAddr : t.bootAddr = u.bootAddr
  resetCause : t.resetCause = .disable
  postError : t.postError = .none
  deviceTime : t.deviceTime = u.deviceTime
  hostMem : t.hostMem = u.hostMem
  pending : t.pending = u.pending
  rings : ∀ r, t.ring r = none
  pool : t.pool = none
  crings : ∀ r, t.cring r = none
  stations : ∀ e, t.station e = none
  admin : t.admin = .reset
  lines : ∀ l, t.line l = Line.reset (u.line l).pins.rxd
  stays : u.enable = false →
    t.device = .off ∧ t.faultCode = u.faultCode ∧ t.loadAddr = none ∧ t.intcause = causesAtOff u.intcause
  loads : u.enable = true → bootAddrOk u.bootAddr = true →
    t.device = .loading ∧ t.faultCode = .none ∧ t.loadAddr = some u.bootAddr ∧ t.intcause = causesAtOff u.intcause
  badBoot : u.enable = true → bootAddrOk u.bootAddr = false →
    t.device = .faulted ∧ t.faultCode = .badBoot ∧ t.loadAddr = none
      ∧ t.intcause = causesAtOff u.intcause ||| causeMask faultBit

/-- What every run of the units' own acts from `u` leaves: the state kept as `State.Kept` says, or a part in DISABLING that has reached OFF. -/
def State.UnitsLeave (u t : State) : Prop := u.Kept t ∨ (u.device = .disabling ∧ u.OffFrom t)

/-- The state `t` is what the units make of `u` by their own acts, each enabled act taken until none has anything left to do. -/
def AfterUnits (u t : State) : Prop := t = u.react ∧ u.UnitsLeave t

end Sys2Proof.Machine
end

