-- ==== Sys2Proof/Certificates/Slice0/Obligations.lean ====
section
/-! DEFINITION. The statements for the provers. A statement about a command says that exec answers a next state, and which: the state that the
rules make of the old one, and after it what the units of the part make of that by their own acts, which `State.react` takes one after another
(`AfterUnits`). That the units act inside the step of the command that enables them is the model's choice (notes/assumptions/41.md); what a
statement says of host memory it says of the image of the bytes the device has written (notes/assumptions/12.md). A docstring names the log
entries of the other choices its statement rests on. -/

open Sys2Proof Sys2Proof.Machine

namespace Sys2Proof.Claims

/-! ## Terms of the statements -/

/-- Address `a` lies in the `n` bytes from `base`. -/
def InRange (base n a : Nat) : Prop := base ≤ a ∧ a < base + n

/-- Address `a` lies in a buffer or place that a write in progress is writing: a slot's data write, a delivery's data write, a report write,
or bytes 0 to 14 of a completion record (R96, R114, R138, R170). -/
def BeingWritten (s : State) (a : Nat) : Prop :=
  (∃ l i, ∃ x ∈ s.slot l i, x.state = .storing ∧ InRange x.sub.buf.toNat x.storeCount a)
  ∨ (∃ l, ∃ d ∈ (s.line l).scanner.delivery, ∃ b ∈ d.buffer, d.status = none ∧ InRange b.toNat d.payload.length a)
  ∨ (s.admin.phase = .reporting ∧ ∃ c ∈ s.admin.command, InRange (addrAt c.record 16).toNat c.report.length a)
  ∨ ∃ r, ∃ c ∈ s.cring r, ∃ w ∈ c.write, InRange (c.base.toNat + 16 * w.place) 15 a

/-- The part is in a state in which work is in hand. -/
def Works (s : State) : Prop := s.device = .running ∨ s.device = .disabling

/-- Memory has the bytes from address `a` upward and is otherwise as it was. -/
def Written (m m' : List Host.Cell) (a : Nat) (bs : List Byte) : Prop :=
  (∀ k < bs.length, memRead m' (a + k) = bs[k]?) ∧ ∀ b, ¬ InRange a bs.length b → memRead m' b = memRead m b

/-- Memory has those of the bytes from address `a` upward that landed and is otherwise as it was (R97). -/
def PartlyWritten (m m' : List Host.Cell) (a : Nat) (bs : List Byte) (landed : List Bool) : Prop :=
  (∀ k < bs.length, memRead m' (a + k) = if landed.getD k false = true then bs[k]? else memRead m (a + k))
  ∧ ∀ b, ¬ InRange a bs.length b → memRead m' b = memRead m b

/-- A line at its reset values (R38, R63, R88, R106, R178). -/
structure LineAtReset (x : Line) : Prop where
  run : x.run = .stopped ∧ x.phase = none ∧ x.attempt = none ∧ x.faultCause = none ∧ x.lastFault = none
  config : x.config = none
  counters : x.counters = .zero
  pins : x.pins.de = false ∧ x.pins.shifting = [] ∧ x.pins.clocking = false ∧ x.pins.sel = false
  slots : ∀ i, x.slot i = none
  scanner : x.scanner.state = .idle ∧ x.scanner.reservation = none ∧ x.scanner.delivery = none ∧ x.scanner.polled = none
  notices : x.noticeQueue = [] ∧ x.linePending = false ∧ x.notice = none
  rest : x.conflictCount = 0 ∧ x.read = none ∧ x.nextAge = 0 ∧ x.timers = .stopped

/-- The part after a reset with a reset cause, device time apart (R171, R178). -/
structure AtReset (cause : ResetCause) (t : State) : Prop where
  device : t.device = .off ∧ t.enable = false ∧ t.intEnable = false ∧ t.bootAddr = 0
  codes : t.resetCause = cause ∧ t.faultCode = .none ∧ t.postError = .none
  causes : t.intcause = 0 ∧ t.intr = false
  rings : (∀ r, t.ring r = none) ∧ t.pool = none ∧ ∀ r, t.cring r = none
  admin : t.admin.phase = .idle ∧ t.admin.command = none
  lines : ∀ l, LineAtReset (t.line l)
  stations : ∀ e, t.station e = none
  time : t.deviceTime = 0

/-- The state with POSTERR set and a reason in the last POST error field, and nothing else changed (R125, R142). -/
def rejected (s : State) (e : PostError) : State := { s with intcause := s.intcause ||| 0x20#6, postError := e }

/-- An attempt to entry `e`, which holds `x`, is in progress on its line (R26). -/
def AttemptTo (s : State) (e : EntryId) (x : Station) : Prop :=
  ∃ a ∈ (s.line x.line).attempt, s.lookup x.line a.addr = some e

/-- The part has entered FAULTED from `s` with a fault code: the code and the FAULT cause are set, every line is STOPPED with its driver off,
its slots FREE and its Scanner IDLE, and the contexts of rings and pool, the configurations, counters and notice queues are held (R176). -/
structure FaultedFrom (s t : State) (code : FaultCode) : Prop where
  device : t.device = .faulted ∧ t.faultCode = code ∧ t.intcause = s.intcause ||| 0x10#6 ∧ t.loadAddr = none
  kept : t.enable = s.enable ∧ t.intEnable = s.intEnable ∧ t.bootAddr = s.bootAddr ∧ t.resetCause = s.resetCause
    ∧ t.postError = s.postError ∧ t.deviceTime = s.deviceTime ∧ t.pending = s.pending
  rings : (∀ r, t.ring r = s.ring r) ∧ t.pool = s.pool
  crings : ∀ r, t.cring r = (s.cring r).map fun c => { c with timer := none, write := none, waiting := [] }
  lines : ∀ l, (t.line l).Rests ∧ (t.line l).pins.rxd = (s.line l).pins.rxd ∧ (t.line l).config = (s.line l).config
    ∧ (t.line l).counters = (s.line l).counters ∧ (t.line l).lastFault = (s.line l).lastFault
    ∧ (t.line l).linePending = (s.line l).linePending ∧ (t.line l).noticeQueue = (s.line l).noticeQueue
    ∧ (t.line l).conflictCount = (s.line l).conflictCount
  freeEntries : ∀ e, s.station e = none → t.station e = none
  stations : ∀ e, ∀ x ∈ s.station e, ∃ y ∈ t.station e, y = { x with syncNeeded := y.syncNeeded }
    ∧ (y.syncNeeded = true ↔ x.syncNeeded = true ∨ AttemptTo s e x)
  admin : if s.admin.phase = .waiting then t.admin = s.admin else t.admin.phase = .idle
  memory : ∀ a, ¬ BeingWritten s a → memRead t.hostMem a = memRead s.hostMem a

end Sys2Proof.Claims

open Sys2Proof.Claims

/-! ## The step and the units (host interface) -/

/-- One step takes the command at the front of the queue and runs it with the queue's rest; with an empty queue it counts one microsecond of
device time and changes nothing else, which is the model's choice (notes/assumptions/8.md). -/
def Obligations.StepRunsTheCommandAtTheFront : Prop :=
  (∀ (c : Instr) (s : State), step { s with pending := c :: s.pending } = exec c s)
  ∧ (∀ s : State, s.pending = [] → step s = .next { s with deviceTime := s.deviceTime + 1 })

/-- What the units do of themselves changes no register, no cause, no device time and no host memory, creates nothing, and removes only a drained
ring, unless a part in DISABLING reaches OFF by it; in OFF, LOADING and FAULTED they do nothing (R40, R50, R68, R109, R117, R132, R134, R138,
R155, R175). Model's choices it rests on: notes/assumptions/2, 41, 47. -/
def Obligations.UnitsOwnActsKeepTheRest : Prop :=
  (∀ u : State, AfterUnits u u.react)
  ∧ (∀ u : State, u.working = false → u.react = u)

/-- A slot may be granted: READY, no older non-FREE slot of its (ring, station), and its station neither held off nor redelivery-pending
(R48). -/
def Sys2Proof.Claims.Grantable (s : State) (l : LineId) (i : SlotId) (x : Slot) : Prop :=
  s.slot l i = some x ∧ x.state = .ready
  ∧ (∀ j, ∀ y ∈ s.slot l j, y.ring = x.ring → y.addr = x.addr → x.age ≤ y.age)
  ∧ ∀ st ∈ s.keyed l x.addr, st.holdUntil = none ∧ st.redelivery = false

/-- Station `x` of line `l`, at entry `e`, is a candidate for a scan poll (R107). -/
def Sys2Proof.Claims.Due (s : State) (l : LineId) (e : EntryId) (x : Station) : Prop :=
  s.station e = some x ∧ x.line = l ∧ x.state ≠ .detaching
  ∧ (x.scanPeriod ≠ 0 ∨ x.state = .offline ∨ x.redelivery = true) ∧ (∃ c ∈ (s.line l).config, c.noticeRing ≠ none)
  ∧ x.nextDue ≤ s.nowMs ∧ x.holdUntil = none
  ∧ (∀ i, ∀ y ∈ s.slot l i, y.addr = x.addr → y.state ≠ .active ∧ y.state ≠ .storing)
  ∧ (x.redelivery = true → ∃ p ∈ s.pool, p.head ≠ p.tail)

/-- A station of line `l` may be polled in the Arbiter's scan step: the line RUNNING, its Scanner HOLDING, the station a candidate (R107,
R110). -/
def Sys2Proof.Claims.Pollable (s : State) (l : LineId) (e : EntryId) (x : Station) : Prop :=
  (s.line l).run = .running ∧ (s.line l).scanner.state = .holding ∧ Due s l e x

/-- How far ring `r` stands behind the ring last served, rings 1 to 15 in ascending order and wrapping, from ring 1 where none has been served
(R41, R51). -/
def Sys2Proof.Claims.rankAfter (last : Option RingId) (r : RingId) : Nat :=
  (r.val + 14 - (match last with | some q => q.val | none => 0)) % 15

/-- The Arbiter serves class 0 first, then the Scanner's due poll, then classes 1 to 3; within a class the rings in turn after the one last
served; of a ring it takes the oldest slot that may be granted, of the stations due the one with the earliest next due time, and the lower
address between equal times; it grants nothing only where nothing may be granted (R48, R50, R51, R107, R110). -/
def Obligations.ArbiterOrder : Prop :=
  ∀ (s : State) (l : LineId),
    (∀ c i, s.arbiterChoice l = some (.slot c i) → ∃ x, Grantable s l i x ∧ s.ringClass c x.ring = true
      ∧ (∀ j y, Grantable s l j y → ∀ d, s.ringClass d y.ring = true → 1 ≤ y.ring.val → c ≤ d)
      ∧ (c ≠ 0 → ∀ e x, ¬ Pollable s l e x)
      ∧ (∀ j y, Grantable s l j y → s.ringClass c y.ring = true → 1 ≤ y.ring.val →
          rankAfter (vget (s.line l).arbLast c) x.ring ≤ rankAfter (vget (s.line l).arbLast c) y.ring)
      ∧ ∀ j y, Grantable s l j y → y.ring = x.ring → x.age ≤ y.age)
    ∧ (∀ e, s.arbiterChoice l = some (.poll e) → ∃ x, Pollable s l e x
      ∧ (∀ j y, Grantable s l j y → 1 ≤ y.ring.val → s.ringClass 0 y.ring = false)
      ∧ ∀ f y, Pollable s l f y → x.nextDue < y.nextDue ∨ (x.nextDue = y.nextDue ∧ x.addr ≤ y.addr))
    ∧ (s.arbiterChoice l = none →
      (∀ e x, ¬ Pollable s l e x) ∧ ∀ j y, Grantable s l j y → 1 ≤ y.ring.val → ∀ d, s.ringClass d y.ring = false)

/-- The request frame of an attempt, by its bytes: the address, the kind with the toggle in bit 3 and SYNC in bit 4, the length, the payload and
the check characters (R8, R9). -/
def Sys2Proof.Claims.Requests (a : Attempt) (kind : Nat) (toggle : Prop) (payload : List Byte) : Prop :=
  ∃ ctrl : Byte, (ctrl.extractLsb' 0 3).toNat = kind ∧ (ctrl.getLsbD 3 = true ↔ toggle) ∧ ctrl.getLsbD 4 = a.sync
    ∧ ctrl.extractLsb' 5 3 = 0#3
    ∧ let body := [BitVec.ofNat 8 a.addr, ctrl, BitVec.ofNat 8 payload.length] ++ payload
      a.frame = body ++ checkChars body

/-- The line `x` after a grant of the attempt `a`: LEAD with the driver on, SEL asserted on a clocked line and the lead timer started, or with
lead time 0 SENDING with the first character on TXD; sent position 0, receive record empty, attempts counted (R6, R75). -/
def Sys2Proof.Claims.granted (g : LineConfig) (now : Nat) (a : Attempt) (x : Line) : Line :=
  { x with
    phase := if g.lead = 0 then some .sending else some .lead
    attempt := some a, sentPos := 0, echoes := 0, conflict := false, rx := ⟨none, none, none, [], []⟩, timeoutHeld := false
    fillers := 0
    counters := { x.counters with attempts := min 4294967295 (x.counters.attempts + 1) }
    timers := { x.timers with lead := if g.lead = 0 then none else some now }
    pins := {
      de := true, sel := decide (g.mode = .clocked), clocking := decide (g.mode = .clocked ∧ g.lead = 0)
      shifting := if g.lead = 0 then txBits g (byteAt a.frame 0) true else [], rxd := x.pins.rxd } }

/-- The Arbiter grants an idle line in RUNNING or STOPPING to its candidate; TXD rests at mark in LEAD. A slot becomes ACTIVE and its ring the
last served of its class; its request is the record's kind (a BROADCAST a STORE to address 0), with the held payload, the params of a FETCH and
none of a POLL; it is a sync request for the record's SYNC flag or the entry's sync-needed, and else carries the entry's toggle. A scan poll is a
POLL without payload, a sync request where sync-needed is set or the entry is OFFLINE, and the Scanner goes to POLLING (R8, R9, R14, R15, R50,
R52, R75, R90, R110). Model's choices it rests on: notes/assumptions/26, 50. -/
def Obligations.GrantComposesTheRequest : Prop :=
  ∀ (s : State) (l : LineId),
    let x := s.line l
    (s.enabled (.grant l) = true ↔
      s.device = .running ∧ x.phase = some .idle ∧ (x.run = .running ∨ x.run = .stopping) ∧ s.arbiterChoice l ≠ none)
    ∧ ∀ g ∈ x.config,
      (∀ c i, s.arbiterChoice l = some (.slot c i) → ∀ y ∈ s.slot l i,
        let r := y.sub
        ∃ a : Attempt, a.requester = .slot i ∧ a.addr = r.addr.toNat
          ∧ (a.sync = true ↔ ∃ st ∈ s.keyed l r.addr.toNat, st.syncNeeded = true ∨ r.sync = true)
          ∧ Requests a (if r.kind = 1 then 1 else if r.kind = 3 then 3 else 2)
              (a.sync = false ∧ ∃ st ∈ s.keyed l r.addr.toNat, st.toggle = true)
              (if r.kind = 1 then r.params.take r.paramCount.toNat else if r.kind = 3 then [] else y.payload)
          ∧ s.perform (.grant l) = s.setLine l (granted g s.nowUs a { x.setSlot i (some
              { y with state := .active, syncAttempt := a.sync }) with arbLast := vput x.arbLast c (some y.ring) }))
      ∧ ∀ e, s.arbiterChoice l = some (.poll e) → ∀ st ∈ s.station e,
        ∃ a : Attempt, a.requester = .scanner ∧ a.addr = st.addr
          ∧ (a.sync = true ↔ st.syncNeeded = true ∨ st.state = .offline)
          ∧ Requests a 3 (a.sync = false ∧ st.toggle = true) []
          ∧ s.perform (.grant l) = s.setLine l (granted g s.nowUs a { x with
              scanner := { x.scanner with state := .polling, polled := some (e, a.sync) } })

/-- A ring has a place that is neither written-unreleased nor reserved (R140). -/
def Sys2Proof.Claims.Place (s : State) (q : CRingId) : Prop := ∃ c ∈ s.cring q, c.written + c.reserved < 2 ^ c.sizeCode

/-- One place more of completion ring `q` is reserved (R140). -/
def Sys2Proof.Claims.reserved (s : State) (q : CRingId) : State := s.modCRing q fun c => { c with reserved := c.reserved + 1 }

/-- Ring `r` is eligible for intake on line `l`: the part and the line RUNNING, the ring ACTIVE and bound to the line with a record posted, a slot
FREE and no read in progress, fewer than 4 records in flight, no fenced record outstanding, and a place for the completion (R40, R135). -/
def Sys2Proof.Claims.Eligible (s : State) (l : LineId) (r : RingId) : Prop :=
  s.device = .running ∧ (s.line l).run = .running ∧ (∃ i, s.slot l i = none) ∧ (s.line l).read = none
  ∧ ∃ x ∈ s.ring r, x.state = .active ∧ x.line = some l ∧ x.head ≠ x.tail ∧ x.inFlight < 4 ∧ x.fenced = false ∧ Place s x.cring

/-- An act that follows from the state without a claim (R47, R68, R132, R155, R175). -/
def Sys2Proof.Claims.Follows : Act → Prop
  | .fence _ _ | .drain _ | .lineStopped _ | .adminEnd | .reachOff => True
  | _ => False

/-- Two acts whose order is free: they claim places of one completion ring that has a place, request writes of one ring, or bear on one line's
next grant (R50, R138, R140). -/
def Sys2Proof.Claims.Rivals (s : State) (a b : Act) : Prop :=
  (∃ q, Place s q ∧ s.reservesIn a = some q ∧ s.reservesIn b = some q)
  ∨ (∃ q, s.requestsIn a = some q ∧ s.requestsIn b = some q) ∨ ∃ l, a.grantsOn = some l ∧ b.grantsOn = some l

/-- A run of `n` acts from one state to another, each the act that is taken next. -/
inductive Sys2Proof.Claims.Acts : Nat → State → State → Prop
  | done (s : State) : Acts 0 s s
  | act (n : Nat) (s t : State) (a : Act) (free : Bool) :
      s.nextAct = some (a, free) → Acts n ((s.perform a).choiceTaken free) t → Acts (n + 1) s t

/-- The Scanner of line `l` returns its reservation in ring `q` and stands in IDLE: the ring has one reservation less, and the Scanners that wait
for a place of it may claim again (R109, R141). -/
def Sys2Proof.Claims.Returned (s u : State) (l : LineId) (q : CRingId) : Prop :=
  (u.line l).scanner.state = .idle ∧ (u.line l).scanner.reservation = none ∧ (u.line l).scanner.polled = none
  ∧ u.crings = (s.modCRing q fun c => { c with reserved := c.reserved - 1 }).crings
  ∧ (∀ m, (u.line m).scanner.refused = ((s.line m).scanner.refused && !((s.line m).noticeRing == some q)))
  ∧ ∀ m, m ≠ l → u.line m = { s.line m with scanner := { (s.line m).scanner with refused := (u.line m).scanner.refused } }

/-- An enabled act is taken wherever there is one, what follows without a claim first, a choice being free only between rivals; one act follows
another until none is enabled or 1024 have been taken. The Intake takes the lowest class with an eligible ring and in it the rings in turn,
reserves a place and begins the read of the record at base + 32 × head; the Admin Processor likewise of ring 0, with a place in C0; an IDLE
Scanner of a line in RUNNING with a station due claims a place and is HOLDING, or is refused and counted, and a HOLDING one without a station due
gives it back (R40, R41, R107, R109, R121, R123, R134, R135, R140, R141). Model's choices it rests on: notes/assumptions/2, 37, 41. -/
def Obligations.ClaimsAreTakenInOrder : Prop :=
  (∀ s : State, s.nextAct = none ↔ ∀ a, s.enabled a = false)
  ∧ (∀ s a free, s.nextAct = some (a, free) →
      s.enabled a = true ∧ (Follows a ∨ ∀ b, Follows b → s.enabled b = false)
      ∧ (free = true → ∃ b, b ≠ a ∧ s.enabled b = true ∧ Rivals s a b)
      ∧ s.react = State.reactFor 1023 ((s.perform a).choiceTaken free))
  ∧ (∀ s : State, ∃ n ≤ 1024, Acts n s s.react ∧ (n < 1024 → ∀ a, s.react.enabled a = false))
  ∧ (∀ (s : State) (l : LineId), let x := s.line l
      (s.enabled (.intake l) = true ↔ ∃ c r, 1 ≤ r.val ∧ s.ringClass c r = true ∧ Eligible s l r)
      ∧ (∀ c r, s.intakeChoice l = some (c, r) → 1 ≤ r.val ∧ s.ringClass c r = true ∧ Eligible s l r
          ∧ (∀ d q, 1 ≤ q.val → s.ringClass d q = true → Eligible s l q →
              c ≤ d ∧ (c = d → rankAfter (vget x.intakeLast c) r ≤ rankAfter (vget x.intakeLast c) q))
          ∧ ∀ y ∈ s.ring r, s.perform (.intake l) = (reserved s y.cring).setLine l { x with
              intakeLast := vput x.intakeLast c (some r)
              read := some ⟨r, y.head, BitVec.ofNat 64 (y.base.toNat + 32 * y.head), []⟩ }))
  ∧ (∀ s : State,
      (s.enabled .adminRead = true ↔ s.device = .running ∧ s.admin.phase = .idle
        ∧ (∃ y ∈ s.ring 0, y.state = .active ∧ y.head ≠ y.tail) ∧ Place s 0)
      ∧ ∀ y ∈ s.ring 0, s.perform .adminRead = { reserved s 0 with admin :=
          ⟨.reading, none, false, some ⟨y.head, BitVec.ofNat 64 (y.base.toNat + 32 * y.head)⟩⟩ })
  ∧ ∀ (s : State) (l : LineId), let x := s.line l
      (s.enabled (.scanClaim l) = true ↔ s.device = .running ∧ x.run = .running ∧ x.scanner.state = .idle
        ∧ x.scanner.refused = false ∧ ∃ e st, Due s l e st)
      ∧ (∀ g ∈ x.config, ∀ q ∈ g.noticeRing,
          (Place s q → s.perform (.scanClaim l) = (reserved s q).setLine l { x with
            scanner := { x.scanner with state := .holding, reservation := some q } })
          ∧ (¬ Place s q → s.perform (.scanClaim l) = s.setLine l { x with
            scanner := { x.scanner with refused := true }
            counters := { x.counters with scanStarves := min 4294967295 (x.counters.scanStarves + 1) } }))
      ∧ (s.enabled (.scanReturn l) = true ↔
          s.device = .running ∧ x.scanner.state = .holding ∧ ∀ e st, ¬ Due s l e st)
      ∧ (x.scanner.state = .holding → ∀ q ∈ x.scanner.reservation, let u := s.perform (.scanReturn l)
          Returned s u l q ∧ u = { s with crings := u.crings, lines := u.lines }
            ∧ u.line l = { x with scanner := (u.line l).scanner } ∧ (u.line l).scanner.delivery = x.scanner.delivery)

/-- A write of a record is requested of completion ring `q`: its writer waits behind those that wait (R138). -/
def Sys2Proof.Claims.requested (s : State) (q : CRingId) (w : Writer) : State :=
  s.modCRing q fun c => { c with waiting := c.waiting ++ [w] }

/-- Slot `i` of line `l` may write its completion: FINISHING, and no older non-FREE slot of the line is of its ring and station (R60). -/
def Sys2Proof.Claims.Writable (s : State) (l : LineId) (i : SlotId) (x : Slot) : Prop :=
  s.slot l i = some x ∧ x.state = .finishing
  ∧ ∀ j, ∀ y ∈ s.slot l j, y.ring = x.ring → y.addr = x.addr → x.age ≤ y.age

/-- A line writes one slot's completion at a time, the oldest that may write, into its ring's completion ring, whatever record of its Scanner or
notice writer is being written; the notice writer takes a line notice before the station at the head of its queue, clears what it has taken, and
claims a place in the notice ring; a ring with no write in progress begins that of the writer that has waited longest, at its tail and with its
pass value as the record's pass flag, and the Admin Processor writes into C0 (R32, R60, R87, R117, R118, R130, R138, R140, R152). Model's choices
it rests on: notes/assumptions/13, 15, 41. -/
def Obligations.NoticesAndWritesBeginInOrder : Prop :=
  (∀ (s : State) (l : LineId), let x := s.line l
      (s.enabled (.txn l) = true → Works s ∧ x.txnWriter = none ∧ ∃ i y, Writable s l i y
        ∧ (∀ j z, Writable s l j z → y.age ≤ z.age)
        ∧ ∃ q ∈ s.ring y.ring, s.perform (.txn l) =
            requested (s.setLine l { x with txnWriter := some i }) q.cring (.slot l i))
      ∧ (Works s → x.txnWriter = none → (∃ i y, Writable s l i y) →
          (∀ i y, Writable s l i y → s.ring y.ring ≠ none) → s.enabled (.txn l) = true))
  ∧ (∀ (s : State) (l : LineId), let x := s.line l
      (s.enabled (.notice l) = true ↔ s.device = .running ∧ x.notice = none
        ∧ (∃ g ∈ x.config, ∃ q ∈ g.noticeRing, Place s q)
        ∧ (x.linePending = true ∨ ∃ e ∈ x.noticeQueue.head?, s.station e ≠ none))
      ∧ ∀ g ∈ x.config, ∀ q ∈ g.noticeRing,
        let put := fun (u : State) (y : Line) (rec : CompRecord) =>
          requested ((reserved u q).setLine l { y with notice := some ⟨q, rec⟩ }) q (.notice l)
        (x.linePending = true → ∃ rec, rec.kind = .lineNotice ∧ (s.takeNotice l).map (·.1) = some rec
          ∧ s.perform (.notice l) = put s { x with linePending := false } rec)
        ∧ (x.linePending = false → ∀ e rest, x.noticeQueue = e :: rest → ∀ st ∈ s.station e,
          ∃ rec, rec.kind = .stationNotice ∧ (s.takeNotice l).map (·.1) = some rec ∧ s.perform (.notice l) =
            put (s.setStation e (some { st with noticePending := false, changes := 0 })) { x with noticeQueue := rest } rec))
  ∧ (∀ (s : State) (q : CRingId),
      (s.enabled (.startWrite q) = true ↔ Works s ∧ ∃ c ∈ s.cring q, c.write = none ∧ c.waiting ≠ [])
      ∧ ∀ c ∈ s.cring q, ∀ w rest, c.waiting = w :: rest → ∀ rec ∈ s.recordOf w,
        s.perform (.startWrite q) = s.setCRing q (some { c with
          waiting := rest, write := some ⟨w, c.tail, rec, rec.bytes c.pass⟩ }))
  ∧ ∀ s : State,
      (s.enabled .adminWrite = true ↔ Works s ∧ s.admin.phase = .completing ∧ s.admin.requested = false)
      ∧ s.perform .adminWrite = { requested s 0 .admin with admin := { s.admin with requested := true } }

/-! ## Resets and the device state (chapter 10) -/

/-- Power-on reset and HARD_RESET give every block its reset value, write nothing further to host memory beyond a write in progress, and differ
in the reset cause alone; right after power-on the registers read as their reset values, and DEVID reads 0x4808 and line count 8 beside the
revision code (R171, R178, section 11.5). Model's choices it rests on: notes/assumptions/5, 12. -/
def Obligations.ResetsGiveEveryBlockItsResetValue : Prop :=
  (∀ s : State, ∃ t,
      exec .powerOnReset s = .next t ∧ exec .hardReset s = .next { t with resetCause := .hard }
        ∧ AtReset .power t ∧ t.pending = s.pending
        ∧ (∀ l, (t.line l).pins.rxd = (s.line l).pins.rxd)
        ∧ ∀ a, ¬ BeingWritten s a → memRead t.hostMem a = memRead s.hostMem a)
  ∧ (AtReset .power State.reset
    ∧ State.reset.readReg .devctl = 0 ∧ State.reset.readReg .devstat = 0 ∧ State.reset.readReg .bootLo = 0
    ∧ State.reset.readReg .bootHi = 0 ∧ State.reset.readReg .post = 0 ∧ State.reset.readReg .release = 0
    ∧ State.reset.readReg .intcause = 0
    ∧ ((State.reset.readReg .devid).extractLsb' 0 16 = 0x4808#16 ∧ (State.reset.readReg .devid).extractLsb' 24 4 = 8#4))

/-- ENABLE written, by device state. OFF: 0 changes nothing else; 1 begins LOADING with the fault code NONE and the bootstrap address fixed, or
faults the part with BAD_BOOT where the address is no multiple of 32. LOADING and FAULTED are left for OFF on 0, with reset cause DISABLE and
FAULT_CLEAR and the fault code, FAULT and POSTERR kept; 1 in FAULTED changes nothing, 1 in LOADING and RUNNING and either value in DISABLING only
the field (R125, R171, R172, R173, R177). Model's choices it rests on: notes/assumptions/3, 7, 12, 23, 24, 39, 41. -/
def Obligations.EnableByDeviceState : Prop :=
  (∀ s : State, s.device = .off →
      exec (.enable false) s = .next { s with enable := false }
      ∧ (s.bootAddr.toNat % 32 = 0 →
          exec (.enable true) s =
            .next { s with enable := true, device := .loading, faultCode := .none, loadAddr := some s.bootAddr })
      ∧ (s.bootAddr.toNat % 32 ≠ 0 →
          ∃ t, exec (.enable true) s = .next t ∧ FaultedFrom { s with enable := true } t .badBoot))
  ∧ (∀ s : State,
      (s.device = .loading ∨ s.device = .running →
          ∃ t, exec (.enable true) s = .next t ∧ AfterUnits { s with enable := true } t)
      ∧ (s.device = .disabling → ∀ v, ∃ t, exec (.enable v) s = .next t ∧ AfterUnits { s with enable := v } t)
      ∧ (s.device = .faulted → exec (.enable true) s = .next s)
      ∧ (s.device = .faulted ∨ (s.device = .loading ∧ s.enable = true) → ∃ t, exec (.enable false) s = .next t
          ∧ t.device = .off ∧ t.enable = false ∧ t.resetCause = (if s.device = .faulted then .faultClear else .disable)
          ∧ t.faultCode = s.faultCode ∧ t.intcause = s.intcause &&& 0x30#6 ∧ t.postError = .none
          ∧ t.intEnable = s.intEnable ∧ t.bootAddr = s.bootAddr ∧ t.deviceTime = s.deviceTime ∧ t.loadAddr = none
          ∧ t.pending = s.pending ∧ t.hostMem = s.hostMem
          ∧ (∀ r, t.ring r = none) ∧ t.pool = none ∧ (∀ r, t.cring r = none) ∧ (∀ e, t.station e = none)
          ∧ t.admin.phase = .idle ∧ ∀ l, LineAtReset (t.line l) ∧ (t.line l).pins.rxd = (s.line l).pins.rxd))

/-- What an event that ends waiting slots makes of a slot: WAITING, READY and DEFERRED complete with its status, LOADING is marked for the end of
its read unless an earlier event marked it, and ACTIVE, STORING and FINISHING are left (R46, R61). -/
def Sys2Proof.Claims.SlotCut (st : Status) (x y : Slot) : Prop :=
  match x.state with
  | .loading => y = { x with decided := some (x.decided.getD st) }
  | .waiting => y = { x with state := .finishing, outcome := some ⟨st, .none, 0, 0⟩ }
  | .ready => y = { x with state := .finishing, outcome := some ⟨st, .none, 0, 0⟩ }
  | .deferred => y = { x with state := .finishing, outcome := some ⟨st, .none, 0, 0⟩ }
  | .active => y = x
  | .storing => y = x
  | .finishing => y = x

/-- What an event that ends the line's work makes of a slot: as `SlotCut`, and the ACTIVE slot of the abandoned attempt completes with the
status too, its attempt counted (R61). -/
def Sys2Proof.Claims.SlotEnded (st : Status) (x y : Slot) : Prop :=
  if x.state = .active then
    y = { x with state := .finishing, outcome := some ⟨st, .none, 0, 0⟩, attempts := x.attempts + 1 }
  else SlotCut st x y

/-- A line at its values in STOPPED, whatever the way in (R63, R71). -/
def Sys2Proof.Claims.stoppedLine (x : Line) : Line :=
  { x with
    run := .stopped, faultCause := none, phase := none, attempt := none, sentPos := 0, echoes := 0, conflict := false,
    abortStop := false, rx := ⟨none, none, none, [], []⟩, timers := ⟨none, none, none, none, none, none, none, none⟩,
    timeoutHeld := false, fillers := 0, inReception := false, pins := ⟨false, false, false, [], x.pins.rxd⟩ }

/-- The line's work has ended with a status, its Line Controller apart: the attempt is abandoned, a poll is dropped and a delivery goes on, the
slots complete, and a record read is marked (R42, R61, R119). -/
structure Sys2Proof.Claims.WorkEnded (st : Status) (x y : Line) : Prop where
  attempt : y.attempt = none
  delivery : x.scanner.state = .delivering → y.scanner.state = .delivering ∧ y.scanner.delivery = x.scanner.delivery
  poll : x.scanner.state ≠ .delivering → y.scanner.state = .idle ∧ y.scanner.reservation = none
  kept : y.config = x.config ∧ y.counters = x.counters ∧ y.nextAge = x.nextAge ∧ y.conflictCount = x.conflictCount
    ∧ y.notice = x.notice
  freeSlots : ∀ i, x.slot i = none → y.slot i = none
  slots : ∀ i, ∀ a ∈ x.slot i, ∃ b ∈ y.slot i, SlotEnded st a b
  read : y.read = x.read.map fun rd => { rd with events := rd.events ++ [.decided st] }

/-- The line's work has ended ABORTED and the line stops: a character in SENDING is finished first, any other line is STOPPED at once with its
driver off (R69, R72). -/
structure Sys2Proof.Claims.LineAborted (x y : Line) : Prop where
  work : WorkEnded .aborted x y
  sending : x.phase = some .sending → y.run = .stopping ∧ y.phase = some .sending ∧ y.abortStop = true ∧ y.pins = x.pins
    ∧ y.timers = x.timers ∧ y.sentPos = x.sentPos
  other : x.phase ≠ some .sending → stoppedLine y = y
  lastFault : y.lastFault = x.lastFault ∧ y.pins.rxd = x.pins.rxd

/-- The completion rings as they were but for reservations returned and writes requested. -/
def Sys2Proof.Claims.CRingsKept (s u : State) : Prop :=
  (∀ r, s.cring r = none → u.cring r = none)
  ∧ ∀ r, ∀ c ∈ s.cring r, ∃ d ∈ u.cring r, d = { c with reserved := d.reserved, waiting := d.waiting }

/-- ENABLE written 0 in RUNNING: the part enters DISABLING; every line, slot, Scanner, notice queue and a waiting admin command take their
effects, an abandoned attempt sets sync-needed of its station, and registers, causes, contexts and host memory stay (R61, R69, R72, R174).
Model's choices it rests on: notes/assumptions/12, 13, 14, 15, 21, 41, 48, 49. -/
def Obligations.DisableEndsTheWorkInHand : Prop :=
  ∀ s : State, s.device = .running → s.enable = true → s.LinesOk → s.AttemptsOk → s.ScannersOk →
    ∃ u t, exec (.enable false) s = .next t ∧ AfterUnits u t
      ∧ u.device = .disabling ∧ u.enable = false
      ∧ u.intEnable = s.intEnable ∧ u.bootAddr = s.bootAddr ∧ u.resetCause = s.resetCause ∧ u.faultCode = s.faultCode
      ∧ u.postError = s.postError ∧ u.intcause = s.intcause ∧ u.deviceTime = s.deviceTime ∧ u.loadAddr = s.loadAddr
      ∧ u.hostMem = s.hostMem ∧ u.pool = s.pool ∧ u.pending = s.pending ∧ (∀ r, u.ring r = s.ring r)
      ∧ CRingsKept s u
      ∧ (∀ l, LineAborted (s.line l) (u.line l) ∧ (u.line l).noticeQueue = [] ∧ (u.line l).linePending = false)
      ∧ (∀ e, s.station e = none → u.station e = none)
      ∧ (∀ e, ∀ x ∈ s.station e, ∃ y ∈ u.station e,
          y = { x with noticePending := false, syncNeeded := y.syncNeeded }
          ∧ (y.syncNeeded = true ↔ x.syncNeeded = true ∨ AttemptTo s e x))
      ∧ (s.admin.phase ≠ .waiting → u.admin = s.admin)
      ∧ (s.admin.phase = .waiting → ∀ c ∈ s.admin.command,
          u.admin = ⟨.completing, some { c with wait := none, result := some (.aborted, c.waitValue) }, false, none⟩)

/-! ## The registers the host writes (chapters 7, 8 and 10) -/

/-- INT_ENABLE takes the written value in every device state, and INTCAUSE clears each bit written with 1 and leaves each bit written with 0;
neither changes anything else. INTR is asserted exactly when INT_ENABLE is 1 and FAULT (bit 4), POSTERR (bit 5) or the cause of a ring with its
interrupt enable is set (R147, R149, R172). Model's choices it rests on: notes/assumptions/41. -/
def Obligations.IntEnableAndIntcauseWrites : Prop :=
  ∀ s : State,
    (∀ v, ∃ t, exec (.intEnable v) s = .next t ∧ AfterUnits { s with intEnable := v } t)
    ∧ (∀ v : Word, ∃ u t, exec (.intcause v) s = .next t ∧ AfterUnits u t
        ∧ u = { s with intcause := u.intcause }
        ∧ ∀ k < 6, u.intcause.getLsbD k = (s.intcause.getLsbD k && !v.getLsbD k))
    ∧ (s.intr = true ↔ s.intEnable = true ∧ (s.intcause.getLsbD 4 = true ∨ s.intcause.getLsbD 5 = true
        ∨ ∃ r : CRingId, s.intcause.getLsbD r.val = true ∧ ∃ c ∈ s.cring r, c.intEnable = true))

/-- A register write is the command its register stands for: DEVCTL with HARD_RESET is HARD_RESET alone, otherwise INT_ENABLE and ENABLE are
taken together; BOOT_LO and BOOT_HI replace their half in any device state; DEVID and DEVSTAT ignore it; POST, RELEASE and INTCAUSE are their
commands. In every state DEVID reads 0x4808 and line count 8, DEVCTL its two fields with HARD_RESET 0, DEVSTAT device state, reset cause, fault
code and last POST error, BOOT_LO and BOOT_HI the bootstrap address, POST and RELEASE 0, and INTCAUSE the causes (R125, R142, R147, R171, R172,
section 11.5, section 11.6). Model's choices it rests on: notes/assumptions/38, 41. -/
def Obligations.RegisterWriteIsItsCommand : Prop :=
  ∀ (s : State) (v : Word),
    (v.getLsbD 2 = true → ∃ t, exec (.registerWrite .devctl v) s = .next t ∧ exec .hardReset s = .next t)
    ∧ (v.getLsbD 2 = false →
        ∃ t, exec (.registerWrite .devctl v) s = .next t
          ∧ exec (.enable (v.getLsbD 0)) { s with intEnable := v.getLsbD 1 } = .next t)
    ∧ (∃ t, exec (.registerWrite .bootLo v) s = .next t
        ∧ AfterUnits { s with bootAddr := s.bootAddr.extractLsb' 32 32 ++ v } t)
    ∧ (∃ t, exec (.registerWrite .bootHi v) s = .next t
        ∧ AfterUnits { s with bootAddr := v ++ s.bootAddr.extractLsb' 0 32 } t)
    ∧ (∀ r, r = .devid ∨ r = .devstat → ∃ t, exec (.registerWrite r v) s = .next t ∧ AfterUnits s t)
    ∧ exec (.registerWrite .post v) s = exec (.post (v.extractLsb' 0 8) (v.extractLsb' 16 16)) s
    ∧ exec (.registerWrite .release v) s = exec (.release (v.extractLsb' 0 8) (v.extractLsb' 16 16)) s
    ∧ exec (.registerWrite .intcause v) s = exec (.intcause v) s
    ∧ ((s.readReg .devid).extractLsb' 0 16 = 0x4808#16 ∧ (s.readReg .devid).extractLsb' 24 4 = 8#4
        ∧ (s.readReg .devid).extractLsb' 28 4 = 0#4)
    ∧ (∀ k, (s.readReg .devctl).getLsbD k = ((k == 0 && s.enable) || (k == 1 && s.intEnable)))
    ∧ (let device := match s.device with | .off => 0 | .loading => 1 | .running => 2 | .disabling => 3 | .faulted => 4
       let cause := match s.resetCause with | .power => 0 | .hard => 1 | .disable => 2 | .faultClear => 3
       let code := match s.faultCode with
         | .none => 0 | .bootRead => 1 | .badBoot => 2 | .ringRead => 3 | .poolRead => 4 | .compWrite => 5
       let post := match s.postError with | .none => 0 | .notRunning => 1 | .noRing => 2 | .badIndex => 3
       s.readReg .devstat = BitVec.ofNat 32 (device + 16 * cause + 256 * code + 4096 * post))
    ∧ s.readReg .bootHi ++ s.readReg .bootLo = s.bootAddr
    ∧ s.readReg .post = 0 ∧ s.readReg .release = 0
    ∧ ∀ k, (s.readReg .intcause).getLsbD k = s.intcause.getLsbD k

/-- A write of POST is judged NOT_RUNNING, NO_RING, BAD_INDEX in this order; a rejected POST sets POSTERR and the last POST error and changes
nothing else. An accepted POST of a submission ring replaces its tail and changes nothing else; one of ring 16 replaces the pool's tail and,
where it raises the untaken entries from none, makes every redelivery-pending station of every line due at once (R108, R125, R126, R127). Model's
choices it rests on: notes/assumptions/41. -/
def Obligations.PostIsJudgedInOrder : Prop :=
  (∀ (s : State) (ring : Byte) (tail : Half),
      (s.device ≠ .running → ∃ t, exec (.post ring tail) s = .next t ∧ AfterUnits (rejected s .notRunning) t)
      ∧ (s.device = .running → 16 < ring.toNat →
          ∃ t, exec (.post ring tail) s = .next t ∧ AfterUnits (rejected s .noRing) t)
      ∧ ∀ r : RingId, ring.toNat = r.val → s.device = .running →
          ((∀ x ∈ s.ring r, x.state = .draining) →
            ∃ t, exec (.post ring tail) s = .next t ∧ AfterUnits (rejected s .noRing) t)
          ∧ (∀ x ∈ s.ring r, x.state ≠ .draining → 2 ^ x.sizeCode ≤ tail.toNat →
            ∃ t, exec (.post ring tail) s = .next t ∧ AfterUnits (rejected s .badIndex) t)
          ∧ ∀ x ∈ s.ring r, x.state ≠ .draining → tail.toNat < 2 ^ x.sizeCode →
            ∃ t, exec (.post ring tail) s = .next t
              ∧ AfterUnits (s.setRing r (some { x with tail := tail.toNat })) t)
  ∧ (∀ (s : State) (tail : Half), s.device = .running →
      (s.pool = none → ∃ t, exec (.post 16 tail) s = .next t ∧ AfterUnits (rejected s .noRing) t)
      ∧ ∀ p ∈ s.pool,
        (2 ^ p.sizeCode ≤ tail.toNat → ∃ t, exec (.post 16 tail) s = .next t ∧ AfterUnits (rejected s .badIndex) t)
        ∧ (tail.toNat < 2 ^ p.sizeCode → ∃ u t, exec (.post 16 tail) s = .next t ∧ AfterUnits u t
            ∧ u = { s with pool := some { p with tail := tail.toNat }, stations := u.stations }
            ∧ ∀ e, u.station e = (s.station e).map fun x =>
                if p.head = p.tail ∧ tail.toNat ≠ p.head ∧ x.redelivery = true then { x with nextDue := s.nowMs } else x))

/-- A write of RELEASE is judged NOT_RUNNING, NO_RING, BAD_INDEX in this order, the head lying within the written-unreleased span; an accepted
one moves the head, lowers written-unreleased by the places given back, and, where it gives any, lets refused Scanners claim again; tail, pass
value, unsignalled count, timer and cause are not reached, and a read of RELEASE returns zero (R109, R141, R142). Model's choices it rests on:
notes/assumptions/40, 41. -/
def Obligations.ReleaseGivesPlacesBack : Prop :=
  ∀ (s : State) (ring : Byte) (head : Half),
    (s.device ≠ .running → ∃ t, exec (.release ring head) s = .next t ∧ AfterUnits (rejected s .notRunning) t)
    ∧ (s.device = .running → 3 < ring.toNat →
        ∃ t, exec (.release ring head) s = .next t ∧ AfterUnits (rejected s .noRing) t)
    ∧ (∀ r : CRingId, ring.toNat = r.val → s.device = .running →
        (s.cring r = none → ∃ t, exec (.release ring head) s = .next t ∧ AfterUnits (rejected s .noRing) t)
        ∧ ∀ c ∈ s.cring r,
          let k := (head.toNat + 2 ^ c.sizeCode - c.head) % 2 ^ c.sizeCode
          (2 ^ c.sizeCode ≤ head.toNat ∨ c.written < k →
            ∃ t, exec (.release ring head) s = .next t ∧ AfterUnits (rejected s .badIndex) t)
          ∧ (head.toNat < 2 ^ c.sizeCode → k ≤ c.written →
            ∃ u t, exec (.release ring head) s = .next t ∧ AfterUnits u t
              ∧ u = { s.setCRing r (some { c with head := head.toNat, written := c.written - k }) with lines := u.lines }
              ∧ ∀ l, u.line l = { s.line l with scanner := { (s.line l).scanner with
                  refused := (s.line l).scanner.refused && !(decide (0 < k) && (s.line l).noticeRing == some r) } }))
    ∧ s.readReg .release = 0

/-! ## Admin commands (chapter 9) -/

namespace Sys2Proof.Claims

/-- The row of the opcode table of an admin command. -/
def adminInstr (tag : Half) : AdminCmd → Instr
  | .ringCreate ring sizeCode line cls cring base => .ringCreate tag ring sizeCode line cls cring base
  | .ringPause ring => .ringPause tag ring
  | .ringResume ring cls => .ringResume tag ring cls
  | .ringDelete ring mode => .ringDelete tag ring mode
  | .cringCreate ring sizeCode n ie t base => .cringCreate tag ring sizeCode n ie t base
  | .cringPolicy ring n ie t => .cringPolicy tag ring n ie t
  | .cringDelete ring => .cringDelete tag ring
  | .poolCreate sizeCode base => .poolCreate tag sizeCode base
  | .poolDelete => .poolDelete tag
  | .lineConfig line f => .lineConfig tag line f
  | .lineStart line => .lineStart tag line
  | .lineStop line mode => .lineStop tag line mode
  | .stationAttach line addr period => .stationAttach tag line addr period
  | .stationDetach line addr => .stationDetach tag line addr
  | .stationScan line addr period => .stationScan tag line addr period
  | .stationQuery index clear buf => .stationQuery tag index clear buf
  | .lineQuery line part clear buf => .lineQuery tag line part clear buf

/-- The record read of ring 0 is in progress in a RUNNING part (R134, R152). -/
def AdminReads (s : State) : Prop := s.device = .running ∧ s.admin.phase = .reading

/-- The record of ring 0 has been taken: the head has advanced and the in-flight count is 1 (R128, R152). -/
def taken (s : State) : State :=
  s.modRing 0 fun x => { x with head := (x.head + 1) % 2 ^ x.sizeCode, inFlight := 1 }

/-- The record of ring 0 has been taken and its command goes straight to COMPLETING with a status and result value (R152). -/
def completing (s : State) (tag : Half) (c : AdminCmd) (st : Status) (value : Nat) : State :=
  { taken s with admin := ⟨.completing, some ⟨encodeAdmin tag c, 0, [], none, some (st, value)⟩, false, none⟩ }

/-- The record of ring 0 has been taken and its command waits (R155). -/
def waiting (s : State) (tag : Half) (c : AdminCmd) (w : AdminWait) (abandoned : Nat) : State :=
  { taken s with admin := ⟨.waiting, some ⟨encodeAdmin tag c, abandoned, [], some w, none⟩, false, none⟩ }

/-- A ring in host memory is misplaced: base not a multiple of its entries' width, size code out of range, or last byte above the top
(R123, R137, R162). -/
def Misplaced (base : Addr) (width lo hi : Nat) (sizeCode : Byte) : Prop :=
  base.toNat % width ≠ 0 ∨ sizeCode.toNat < lo ∨ hi < sizeCode.toNat
    ∨ 2 ^ 64 - 1 < base.toNat + width * 2 ^ sizeCode.toNat - 1

/-- A field of a LINE_CONFIG record: its value, or its default where its mask bit is set (R86, R180). -/
def fieldOf (f : LineFields) (bit value dflt : Nat) : Nat := if f.mask.getLsbD bit = true then dflt else value

/-- A LINE_CONFIG record breaks a BAD_PARAM test of R164 by its fields (R86, R180). -/
def BadFields (f : LineFields) : Prop :=
  1 < f.mode.toNat ∨ (f.mode = 0 ∧ 10 < f.rate.toNat) ∨ (f.mode = 1 ∧ 5 < f.rate.toNat)
  ∨ 2 < fieldOf f 0 f.parity.toNat 0 ∨ (f.mode = 1 ∧ fieldOf f 0 f.parity.toNat 0 ≠ 0)
  ∨ fieldOf f 1 f.stopBits.toNat 1 < 1 ∨ 2 < fieldOf f 1 f.stopBits.toNat 1
  ∨ fieldOf f 3 f.respTimeout.toNat 40 < 2 ∨ 4095 < fieldOf f 3 f.respTimeout.toNat 40
  ∨ fieldOf f 4 f.gapLimit.toNat 3 < 2 ∨ 15 < fieldOf f 4 f.gapLimit.toNat 3
  ∨ fieldOf f 5 f.settle.toNat 2 < 1 ∨ 15 < fieldOf f 5 f.settle.toNat 2
  ∨ fieldOf f 6 f.suspectAfter.toNat 2 < 1 ∨ 15 < fieldOf f 6 f.suspectAfter.toNat 2
  ∨ fieldOf f 7 f.offlineAfter.toNat 4 < fieldOf f 6 f.suspectAfter.toNat 2 ∨ 15 < fieldOf f 7 f.offlineAfter.toNat 4
  ∨ fieldOf f 8 f.busyHoldOff.toNat 10 < 1 ∨ 1000 < fieldOf f 8 f.busyHoldOff.toNat 10
  ∨ 4 < fieldOf f 10 f.noticeRing.toNat 4
  ∨ fieldOf f 11 f.probeInterval.toNat 1000 < 100

/-- BAD_PARAM, test 2 of R153, by the tables of R156 to R170. -/
def BadParam : AdminCmd → Prop
  | .ringCreate ring sizeCode line cls cring base =>
    ring = 0 ∨ 15 < ring.toNat ∨ Misplaced base 32 2 12 sizeCode ∨ 7 < line.toNat ∨ 3 < cls.toNat ∨ 3 < cring.toNat
  | .ringPause ring => ring = 0 ∨ 15 < ring.toNat
  | .ringResume ring cls => ring = 0 ∨ 15 < ring.toNat ∨ (3 < cls.toNat ∧ cls ≠ 0xFF)
  | .ringDelete ring mode => ring = 0 ∨ 15 < ring.toNat ∨ 1 < mode.toNat
  | .cringCreate ring sizeCode n _ _ base => ring = 0 ∨ 3 < ring.toNat ∨ Misplaced base 16 3 13 sizeCode ∨ n = 0
  | .cringPolicy ring n _ _ => 3 < ring.toNat ∨ n = 0
  | .cringDelete ring => ring = 0 ∨ 3 < ring.toNat
  | .poolCreate sizeCode base => Misplaced base 8 2 10 sizeCode
  | .poolDelete => False
  | .lineConfig line f => 7 < line.toNat ∨ BadFields f
  | .lineStart line => 7 < line.toNat
  | .lineStop line mode => 7 < line.toNat ∨ 1 < mode.toNat
  | .stationAttach line addr period =>
    7 < line.toNat ∨ addr = 0 ∨ 126 < addr.toNat ∨ (1 ≤ period.toNat ∧ period.toNat ≤ 4)
  | .stationDetach line addr => 7 < line.toNat ∨ addr = 0 ∨ 126 < addr.toNat
  | .stationScan line addr period =>
    7 < line.toNat ∨ addr = 0 ∨ 126 < addr.toNat ∨ (1 ≤ period.toNat ∧ period.toNat ≤ 4)
  | .stationQuery index _ _ => 127 < index.toNat
  | .lineQuery line part _ _ => 7 < line.toNat ∨ 2 < part.toNat

/-- No entry in use has the key a line byte and an address byte name (R18). -/
def NoEntry (s : State) (line addr : Byte) : Prop :=
  ∀ e, ∀ x ∈ s.station e, ¬ (x.line.val = line.toNat ∧ x.addr = addr.toNat)

/-- A submission ring a byte names is found by no command: ABSENT or DRAINING (R124). -/
def RingNotFound (s : State) (ring : Byte) : Prop :=
  ∀ r : RingId, r.val = ring.toNat → ∀ x ∈ s.ring r, x.state = .draining

/-- The completion ring a byte names is ABSENT. -/
def CRingAbsent (s : State) (cring : Byte) : Prop := ∀ q : CRingId, q.val = cring.toNat → s.cring q = none

/-- The line a byte names has no configuration. -/
def Unconfigured (s : State) (line : Byte) : Prop := ∀ l : LineId, l.val = line.toNat → (s.line l).config = none

/-- The line a byte names has no configuration, or its configuration names notice ring NONE. -/
def CannotScan (s : State) (line : Byte) : Prop :=
  ∀ l : LineId, l.val = line.toNat → ∀ c ∈ (s.line l).config, c.noticeRing = none

/-- The notice ring a LINE_CONFIG's fields name, 4 for NONE. -/
def noticeField (f : LineFields) : Nat := fieldOf f 10 f.noticeRing.toNat 4

/-- NOT_FOUND, test 3 of R153, by the tables of R156 to R170. -/
def NotFound (s : State) : AdminCmd → Prop
  | .ringCreate _ _ _ _ cring _ => CRingAbsent s cring
  | .ringPause ring => RingNotFound s ring
  | .ringResume ring _ => RingNotFound s ring
  | .ringDelete ring _ => RingNotFound s ring
  | .cringPolicy ring _ _ _ => CRingAbsent s ring
  | .cringDelete ring => CRingAbsent s ring
  | .poolDelete => s.pool = none
  | .lineConfig _ f => ∃ q : CRingId, q.val = noticeField f ∧ s.cring q = none
  | .stationDetach line addr => NoEntry s line addr
  | .stationScan line addr _ => NoEntry s line addr
  | .stationQuery index _ _ => ∀ e : EntryId, e.val = index.toNat → s.station e = none
  | _ => False

/-- WRONG_STATE, test 4 of R153, by the tables of R156 to R170. -/
def WrongState (s : State) : AdminCmd → Prop
  | .ringCreate _ _ line _ _ _ => Unconfigured s line
  | .ringPause ring => ∃ r : RingId, r.val = ring.toNat ∧ ∃ x ∈ s.ring r, x.state = .paused
  | .ringResume ring _ => ∃ r : RingId, r.val = ring.toNat ∧ ∃ x ∈ s.ring r, x.state = .active
  | .lineConfig line _ => ∃ l : LineId, l.val = line.toNat ∧ (s.line l).run ≠ .stopped
  | .lineStart line => Unconfigured s line ∨ ∃ l : LineId, l.val = line.toNat ∧ (s.line l).run = .running
  | .stationAttach line _ period => period ≠ 0 ∧ CannotScan s line
  | .stationScan line _ period => period ≠ 0 ∧ CannotScan s line
  | _ => False

/-- IN_USE, test 5 of R153, by the tables of R156 to R170. -/
def InUse (s : State) : AdminCmd → Prop
  | .ringCreate ring _ _ _ _ _ => ∃ r : RingId, r.val = ring.toNat ∧ s.ring r ≠ none
  | .cringCreate ring _ _ _ _ _ => ∃ q : CRingId, q.val = ring.toNat ∧ s.cring q ≠ none
  | .cringDelete ring => ∃ q : CRingId, q.val = ring.toNat ∧
    ((∃ r, ∃ x ∈ s.ring r, x.cring = q) ∨ (∃ l, ∃ c ∈ (s.line l).config, c.noticeRing = some q)
      ∨ ∃ c ∈ s.cring q, 0 < c.written ∨ 0 < c.reserved)
  | .poolCreate _ _ => s.pool ≠ none
  | .poolDelete => (∃ e, ∃ x ∈ s.station e, x.scanPeriod ≠ 0 ∨ x.redelivery = true)
    ∨ ∃ l, (s.line l).scanner.state = .delivering
  | .lineConfig line f => noticeField f = 4
    ∧ ∃ e, ∃ x ∈ s.station e, x.line.val = line.toNat ∧ (x.scanPeriod ≠ 0 ∨ x.redelivery = true)
  | .stationAttach line addr _ => ¬ NoEntry s line addr
  | _ => False

/-- NO_ROOM, test 6 of R153: STATION_ATTACH finds no free entry (R167). -/
def NoRoom (s : State) : AdminCmd → Prop
  | .stationAttach _ _ _ => ∀ e, s.station e ≠ none
  | _ => False

/-- The command passes every test of R153. -/
def Passes (s : State) (c : AdminCmd) : Prop :=
  AdminReads s ∧ ¬ BadParam c ∧ ¬ NotFound s c ∧ ¬ WrongState s c ∧ ¬ InUse s c ∧ ¬ NoRoom s c

end Sys2Proof.Claims

/-- A taken admin record is judged BAD_PARAM, NOT_FOUND, WRONG_STATE, IN_USE, NO_ROOM in this order; the first test that fails decides the
status, the result value is 0, and nothing else changes (R153, R156 to R170). Model's choices it rests on: notes/assumptions/13, 29, 41. -/
def Obligations.AdminCommandsAreJudgedInOrder : Prop :=
  ∀ (s : State) (tag : Half) (c : AdminCmd), AdminReads s →
    let fails := fun st => ∃ t, exec (adminInstr tag c) s = .next t ∧ AfterUnits (completing s tag c st 0) t
    (BadParam c → fails .badParam)
    ∧ (¬ BadParam c → NotFound s c → fails .notFound)
    ∧ (¬ BadParam c → ¬ NotFound s c → WrongState s c → fails .wrongState)
    ∧ (¬ BadParam c → ¬ NotFound s c → ¬ WrongState s c → InUse s c → fails .inUse)
    ∧ (¬ BadParam c → ¬ NotFound s c → ¬ WrongState s c → ¬ InUse s c → NoRoom s c → fails .noRoom)

/-- Any 32 bytes read from ring 0: the layout of an admin command with its zero fields zero is that command, any other record completes
BAD_RECORD and changes nothing else, a read that ends under DISABLING completes ABORTED without being executed, and a bus error faults the part
with RING_READ (R128, R153, R155, R176). Model's choices it rests on: notes/assumptions/3, 7, 13, 22, 23, 24, 41. -/
def Obligations.AdminRecordsAreTakenByTheirBytes : Prop :=
  ∀ s : State,
    (∀ tag c, exec (.adminRecordRead (.ok (encodeAdmin tag c))) s = exec (adminInstr tag c) s)
    ∧ (∀ bs : List Byte, bs.length = 32 → AdminReads s → (∀ tag c, bs ≠ encodeAdmin tag c) →
        ∃ t, exec (.adminRecordRead (.ok bs)) s = .next t
          ∧ AfterUnits { taken s with admin := ⟨.completing, some ⟨bs, 0, [], none, some (.badRecord, 0)⟩, false, none⟩ } t)
    ∧ (∀ bs : List Byte, bs.length = 32 → s.device = .disabling → s.admin.phase = .reading →
        ∃ t, exec (.adminRecordRead (.ok bs)) s = .next t
          ∧ AfterUnits { taken s with admin := ⟨.completing, some ⟨bs, 0, [], none, some (.aborted, 0)⟩, false, none⟩ } t)
    ∧ (s.device = .running ∨ s.device = .disabling → s.admin.phase = .reading →
        ∃ t, exec (.adminRecordRead .error) s = .next t ∧ FaultedFrom s t .ringRead)

/-- RING_CREATE makes an empty ACTIVE ring with the given fields; RING_PAUSE and RING_RESUME change its state, and RING_RESUME its class where it
carries one, and nothing else of it; each completes OK at once (R122, R131, R156, R157). Model's choices it rests on: notes/assumptions/13, 41.
-/
def Obligations.RingCommandsTakeEffect : Prop :=
  ∀ (s : State) (tag : Half) (r : RingId),
    (∀ sizeCode (l : LineId) (k : ClassId) (q : CRingId) base,
      let c := AdminCmd.ringCreate (BitVec.ofNat 8 r) sizeCode (BitVec.ofNat 8 l) (BitVec.ofNat 8 k) (BitVec.ofNat 8 q) base
      Passes s c → ∃ t, exec (adminInstr tag c) s = .next t
        ∧ AfterUnits ((completing s tag c .ok 0).setRing r (some ⟨.active, base, sizeCode.toNat, 0, 0, some l, some k, q, 0, false⟩)) t)
    ∧ (∀ x ∈ s.ring r,
        let c := AdminCmd.ringPause (BitVec.ofNat 8 r)
        Passes s c → ∃ t, exec (adminInstr tag c) s = .next t
          ∧ AfterUnits ((completing s tag c .ok 0).setRing r (some { x with state := .paused })) t)
    ∧ (∀ x ∈ s.ring r,
        let c := AdminCmd.ringResume (BitVec.ofNat 8 r) 0xFF
        Passes s c → ∃ t, exec (adminInstr tag c) s = .next t
          ∧ AfterUnits ((completing s tag c .ok 0).setRing r (some { x with state := .active })) t)
    ∧ ∀ x ∈ s.ring r, ∀ k : ClassId,
        let c := AdminCmd.ringResume (BitVec.ofNat 8 r) (BitVec.ofNat 8 k)
        Passes s c → ∃ t, exec (adminInstr tag c) s = .next t
          ∧ AfterUnits ((completing s tag c .ok 0).setRing r (some { x with state := .active, cls := some k })) t

/-- RING_DELETE moves the ring to DRAINING, fixes its abandoned count (the pending count, less 1 while a record read of the ring is in progress)
and waits; the abort mode reaches the ring's slots and its record read and nothing else (R58, R61, R132, R158). Where a POST has emptied the ring
under a read the count is left to notes/assumptions/19.md. Model's choices it rests on: notes/assumptions/13, 19, 41. -/
def Obligations.RingDeleteDrainsTheRing : Prop :=
  ∀ (s : State) (tag : Half) (r : RingId) (mode : Byte), ∀ x ∈ s.ring r,
    let c := AdminCmd.ringDelete (BitVec.ofNat 8 r) mode
    let reading := ∃ l, ∃ rd ∈ (s.line l).read, rd.ring = r
    Passes s c → x.head < 2 ^ x.sizeCode → x.tail < 2 ^ x.sizeCode → (reading → x.head ≠ x.tail) →
      ∃ n u t, exec (adminInstr tag c) s = .next t ∧ AfterUnits u t
        ∧ (¬ reading → n = (x.tail + 2 ^ x.sizeCode - x.head) % 2 ^ x.sizeCode)
        ∧ (reading → n + 1 = (x.tail + 2 ^ x.sizeCode - x.head) % 2 ^ x.sizeCode)
        ∧ u = { (waiting s tag c (.ringDelete r) n).setRing r (some { x with state := .draining }) with lines := u.lines }
        ∧ (mode = 0 → ∀ l, u.line l = s.line l)
        ∧ (mode = 1 → ∀ l, some l ≠ x.line → u.line l = s.line l)
        ∧ (mode = 1 → ∀ l, some l = x.line →
            u.line l = { s.line l with slots := (u.line l).slots, read := (u.line l).read }
            ∧ (u.line l).read = (s.line l).read.map (fun rd =>
                if rd.ring = r then { rd with events := rd.events ++ [.decided .aborted] } else rd)
            ∧ (∀ i, (s.line l).slot i = none → (u.line l).slot i = none)
            ∧ ∀ i, ∀ a ∈ (s.line l).slot i, ∃ b ∈ (u.line l).slot i,
                if a.ring ≠ r then b = a
                else if a.state = .active then b = { a with lastAttempt := true } else SlotCut .aborted a b)

/-- CRING_CREATE makes an empty ACTIVE completion ring with pass value 1 and the given policy; CRING_DELETE makes the ring ABSENT and clears its
cause; POOL_CREATE makes an empty pool and POOL_DELETE removes it; each completes OK at once and changes nothing else (R113, R136, R148, R159,
R161 to R163). Model's choices it rests on: notes/assumptions/13, 41. -/
def Obligations.CompletionRingAndPoolCommandsTakeEffect : Prop :=
  ∀ (s : State) (tag : Half),
    (∀ (q : CRingId) sizeCode n ie time base,
      let c := AdminCmd.cringCreate (BitVec.ofNat 8 q) sizeCode n ie time base
      Passes s c → ∃ t, exec (adminInstr tag c) s = .next t
        ∧ AfterUnits ((completing s tag c .ok 0).setCRing q
            (some ⟨base, sizeCode.toNat, 0, 0, 0, 0, true, n.toNat, time.toNat, ie, 0, none, none, []⟩)) t)
    ∧ (∀ q : CRingId,
        let c := AdminCmd.cringDelete (BitVec.ofNat 8 q)
        Passes s c → ∃ u t, exec (adminInstr tag c) s = .next t ∧ AfterUnits u t
          ∧ u = { (completing s tag c .ok 0).setCRing q none with intcause := u.intcause }
          ∧ ∀ k < 6, u.intcause.getLsbD k = (s.intcause.getLsbD k && k != q.val))
    ∧ (∀ sizeCode base,
        let c := AdminCmd.poolCreate sizeCode base
        Passes s c → ∃ t, exec (adminInstr tag c) s = .next t
          ∧ AfterUnits { completing s tag c .ok 0 with pool := some ⟨base, sizeCode.toNat, 0, 0⟩ } t)
    ∧ (Passes s .poolDelete → ∃ t, exec (.poolDelete tag) s = .next t
        ∧ AfterUnits { completing s tag .poolDelete .ok 0 with pool := none } t)

/-- CRING_POLICY replaces threshold, time and interrupt enable and then takes the steps of R146 in order: the cause is set where the unsignalled
count is above 0 and at or above the new n; otherwise t 0 stops the timer; otherwise a running timer at or above the new t sets the cause;
otherwise a stopped timer starts from 0 where the count is above 0; otherwise the timer runs on (R144, R146, R160). Model's choices it rests on:
notes/assumptions/13, 41. -/
def Obligations.PolicyChangeTakesTheStepsInOrder : Prop :=
  ∀ (s : State) (tag : Half) (q : CRingId) (n : Byte) (ie : Bool) (time : Half), ∀ x ∈ s.cring q,
    let c := AdminCmd.cringPolicy (BitVec.ofNat 8 q) n ie time
    let y := { x with threshold := n.toNat, time := time.toNat, intEnable := ie }
    let base := completing s tag c .ok 0
    let goes := fun u => ∃ t, exec (adminInstr tag c) s = .next t ∧ AfterUnits u t
    let signals := { base.setCRing q (some { y with unsignalled := 0, timer := none }) with
      intcause := s.intcause ||| BitVec.twoPow 6 q.val }
    let first := 0 < x.unsignalled ∧ n.toNat ≤ x.unsignalled
    Passes s c →
      (first → goes signals)
      ∧ (¬ first → time = 0 → goes (base.setCRing q (some { y with timer := none })))
      ∧ (¬ first → time ≠ 0 → ∀ since ∈ x.timer, time.toNat ≤ s.nowUs - since → goes signals)
      ∧ (¬ first → time ≠ 0 → x.timer = none → 0 < x.unsignalled →
          goes (base.setCRing q (some { y with timer := some s.nowUs })))
      ∧ (¬ first → time ≠ 0 → (x.timer = none → x.unsignalled = 0) → (∀ since ∈ x.timer, s.nowUs - since < time.toNat) →
          goes (base.setCRing q (some y)))

/-- LINE_CONFIG gives the line the whole record at once, each field at its value or its default, changes nothing else and completes OK (R86,
R164, R180). Model's choices it rests on: notes/assumptions/13, 41. -/
def Obligations.LineConfigTakesTheWholeRecord : Prop :=
  ∀ (s : State) (tag : Half) (l : LineId) (f : LineFields),
    let c := AdminCmd.lineConfig (BitVec.ofNat 8 l) f
    Passes s c → ∃ g t, exec (adminInstr tag c) s = .next t
      ∧ AfterUnits ((completing s tag c .ok 0).setLine l { s.line l with config := some g }) t
      ∧ g.mode = (if f.mode = 0 then .async else .clocked) ∧ g.rate = f.rate.toNat
      ∧ (fieldOf f 0 f.parity.toNat 0 = 0 → g.parity = .none) ∧ (fieldOf f 0 f.parity.toNat 0 = 1 → g.parity = .even)
      ∧ (fieldOf f 0 f.parity.toNat 0 = 2 → g.parity = .odd)
      ∧ g.stopBits = fieldOf f 1 f.stopBits.toNat 1 ∧ g.lead = fieldOf f 2 f.lead.toNat 2
      ∧ g.respTimeout = fieldOf f 3 f.respTimeout.toNat 40 ∧ g.gapLimit = fieldOf f 4 f.gapLimit.toNat 3
      ∧ g.settle = fieldOf f 5 f.settle.toNat 2 ∧ g.suspectAfter = fieldOf f 6 f.suspectAfter.toNat 2
      ∧ g.offlineAfter = fieldOf f 7 f.offlineAfter.toNat 4 ∧ g.busyHoldOff = fieldOf f 8 f.busyHoldOff.toNat 10
      ∧ g.busyLimit = fieldOf f 9 f.busyLimit.toNat 16 ∧ g.probeInterval = fieldOf f 11 f.probeInterval.toNat 1000
      ∧ (noticeField f = 4 → g.noticeRing = none) ∧ ∀ q : CRingId, noticeField f = q.val → g.noticeRing = some q

/-- LINE_START takes a STOPPED or FAULTED line into STARTING, clears its fault cause and conflict count, starts its start timers and waits; what
fault it reported before is left to the notice writer (R64, R165). Model's choices it rests on: notes/assumptions/13, 27, 41. -/
def Obligations.LineStartEntersStarting : Prop :=
  ∀ (s : State) (tag : Half) (l : LineId), ∀ g ∈ (s.line l).config,
    let c := AdminCmd.lineStart (BitVec.ofNat 8 l)
    let x := s.line l
    Passes s c → x.run = .stopped ∨ x.run = .faulted →
      ∃ t, exec (adminInstr tag c) s = .next t
        ∧ AfterUnits ((waiting s tag c (.lineStart l) 0).setLine l { x with
            run := .starting, faultCause := none, conflictCount := 0, inReception := false,
            timers := {
              lead := none, response := none, gap := none, settleLimit := none, stuck := none,
              startLimit := some s.nowUs,
              startQuiet := if g.mode = .async ∧ x.pins.rxd = .mark then some s.nowUs else none,
              settle := if g.mode = .clocked then some s.nowUs else none } }) t

/-- LINE_STOP of a STOPPED line changes nothing and of a FAULTED line stops it at once; both complete OK. Of a RUNNING line, the graceful mode
puts it in STOPPING, drops a poll not yet granted and ends ABORTED the slots deferred for a pending redelivery; the abort mode ends the line's
work ABORTED and stops it, at the end of the character where one is being sent; both wait (R61, R68, R69, R119, R166). Model's choices it rests
on: notes/assumptions/13, 14, 15, 41. -/
def Obligations.LineStopByRunState : Prop :=
  ∀ (s : State) (tag : Half) (l : LineId) (mode : Byte),
    let c := AdminCmd.lineStop (BitVec.ofNat 8 l) mode
    let x := s.line l
    Passes s c →
      (x.run = .stopped → ∃ t, exec (adminInstr tag c) s = .next t ∧ AfterUnits (completing s tag c .ok 0) t)
      ∧ (x.run = .faulted → ∃ t, exec (adminInstr tag c) s = .next t
          ∧ AfterUnits ((completing s tag c .ok 0).setLine l (stoppedLine x)) t)
      ∧ (x.run = .running → mode = 0 → x.scanner.Ok → ∃ u t, exec (adminInstr tag c) s = .next t ∧ AfterUnits u t
          ∧ CRingsKept s u
          ∧ u = { waiting s tag c (.lineStop l) 0 with crings := u.crings, lines := u.lines }
          ∧ (∀ k, k ≠ l → (u.line k) = { s.line k with scanner := (u.line k).scanner }
              ∧ (u.line k).scanner = { (s.line k).scanner with refused := (u.line k).scanner.refused })
          ∧ u.line l = { x with run := .stopping, scanner := (u.line l).scanner, slots := (u.line l).slots }
          ∧ (if x.scanner.state = .holding then (u.line l).scanner.state = .idle ∧ (u.line l).scanner.reservation = none
             else (u.line l).scanner = x.scanner)
          ∧ (∀ i, x.slot i = none → (u.line l).slot i = none)
          ∧ ∀ i, ∀ a ∈ x.slot i, ∃ b ∈ (u.line l).slot i,
              let cut := a.state = .deferred ∧ ∃ st ∈ s.keyed l a.addr, st.redelivery = true
              (cut → SlotCut .aborted a b) ∧ (¬ cut → b = a))
      ∧ (x.run = .running → mode = 1 → s.LinesOk → s.AttemptsOk → s.ScannersOk →
          ∃ u t, exec (adminInstr tag c) s = .next t ∧ AfterUnits u t
            ∧ CRingsKept s u
            ∧ u = { waiting s tag c (.lineAbort l) 0 with crings := u.crings, lines := u.lines, stations := u.stations }
            ∧ LineAborted x (u.line l)
            ∧ (u.line l).noticeQueue = x.noticeQueue ∧ (u.line l).linePending = x.linePending
            ∧ (∀ k, k ≠ l → (u.line k) = { s.line k with scanner := (u.line k).scanner }
                ∧ (u.line k).scanner = { (s.line k).scanner with refused := (u.line k).scanner.refused })
            ∧ (∀ e, s.station e = none → u.station e = none)
            ∧ ∀ e, ∀ y ∈ s.station e, ∃ z ∈ u.station e, z = { y with syncNeeded := z.syncNeeded }
                ∧ (z.syncNeeded = true ↔ y.syncNeeded = true ∨ (y.line = l ∧ AttemptTo s e y)))

/-- STATION_ATTACH takes the lowest-numbered free entry with the values of a new entry and completes OK with its index; STATION_SCAN sets the
scan period, makes a scanned station due now and completes OK with the period held before; neither changes anything else (R19, R20, R108, R154,
R167, R169). Model's choices it rests on: notes/assumptions/13, 41. -/
def Obligations.StationAttachAndScan : Prop :=
  ∀ (s : State) (tag : Half) (l : LineId) (addr : Byte) (period : Half),
    (let c := AdminCmd.stationAttach (BitVec.ofNat 8 l) addr period;
      Passes s c → ∃ e : EntryId, s.station e = none ∧ (∀ f, f < e → s.station f ≠ none)
        ∧ ∃ t, exec (adminInstr tag c) s = .next t
          ∧ AfterUnits ((completing s tag c .ok e.val).setStation e (some {
              line := l, addr := addr.toNat, state := .new, toggle := false, syncNeeded := true, failureCount := 0,
              holdUntil := none, redelivery := false, scanPeriod := period.toNat, nextDue := s.nowMs,
              noticePending := false, changes := 0, exchanges := 0, failures := 0, busy := 0, redeliveries := 0,
              losses := 0, lastKind := none })) t)
    ∧ (let c := AdminCmd.stationScan (BitVec.ofNat 8 l) addr period;
      Passes s c → s.KeysOk → ∀ e, ∀ x ∈ s.station e, x.line = l → x.addr = addr.toNat →
        ∃ t, exec (adminInstr tag c) s = .next t
          ∧ AfterUnits ((completing s tag c .ok x.scanPeriod).setStation e (some { x with
              scanPeriod := period.toNat
              nextDue := if period = 0 then x.nextDue else s.nowMs })) t)

/-- STATION_DETACH ends the station's waiting slots DETACHED and marks the line's record read. With no attempt to the station in progress the
entry is freed, leaves the notice queue without a notice, and the command completes OK with its index; otherwise the entry moves to DETACHING
with a notice pending and the command waits (R31, R33, R34, R42, R154, R168). Model's choices it rests on: notes/assumptions/13, 20, 41. -/
def Obligations.StationDetachFreesOrWaits : Prop :=
  ∀ (s : State) (tag : Half) (l : LineId) (addr : Byte),
    let c := AdminCmd.stationDetach (BitVec.ofNat 8 l) addr
    Passes s c → s.KeysOk → ∀ e, ∀ x ∈ s.station e, x.line = l → x.addr = addr.toNat →
      ∃ u t, exec (adminInstr tag c) s = .next t ∧ AfterUnits u t
        ∧ (∀ k, k ≠ l → u.line k = s.line k)
        ∧ u.line l = { s.line l with
            slots := (u.line l).slots, read := (u.line l).read, noticeQueue := (u.line l).noticeQueue }
        ∧ (u.line l).read =
            (s.line l).read.map (fun rd => { rd with events := rd.events ++ [.detached addr.toNat] })
        ∧ (∀ i, (s.line l).slot i = none → (u.line l).slot i = none)
        ∧ (∀ i, ∀ a ∈ (s.line l).slot i, ∃ b ∈ (u.line l).slot i,
            if a.addr = addr.toNat then SlotCut .detached a b else b = a)
        ∧ if ∃ a ∈ (s.line l).attempt, a.addr = addr.toNat then
            u = { (waiting s tag c (.detach e) 0).setStation e (some
                    { x with state := .detaching, noticePending := true, changes := min 255 (x.changes + 1) }) with lines := u.lines }
            ∧ (u.line l).noticeQueue =
                (if e ∈ (s.line l).noticeQueue then (s.line l).noticeQueue else (s.line l).noticeQueue ++ [e])
          else
            u = { (completing s tag c .ok e.val).setStation e none with lines := u.lines }
            ∧ (u.line l).noticeQueue = (s.line l).noticeQueue.filter (· ≠ e)

/-- A query composes its 32-byte report at the take, clears the counters it is asked to clear immediately after, and begins the write of the
report, or ends with HOST_WRITE_ERROR at once where the buffer reaches above the top; nothing else changes. The write ends the query OK with
result value 32 and the report in the buffer, or HOST_WRITE_ERROR with result value 0 and each byte old or new; a report write error is no device
fault (R35, R36, R88, R91, R170). Model's choices it rests on: notes/assumptions/12, 13, 28, 41. -/
def Obligations.QueriesComposeTheirReports : Prop :=
  (∀ (s : State) (tag : Half) (clear : Bool) (buf : Addr),
    let goes := fun (c : AdminCmd) (report : List Byte) (u : State) =>
      ∃ t, exec (adminInstr tag c) s = .next t ∧ AfterUnits { u with admin :=
        if buf.toNat + 32 ≤ 2 ^ 64 then ⟨.reporting, some ⟨encodeAdmin tag c, 0, report, none, none⟩, false, none⟩
        else ⟨.completing, some ⟨encodeAdmin tag c, 0, report, none, some (.hostWriteError, 0)⟩, false, none⟩ } t
    (∀ e : EntryId, ∀ x ∈ s.station e,
      let c := AdminCmd.stationQuery (BitVec.ofNat 8 e) clear buf
      Passes s c → goes c (stationReport s.nowMs e x)
        (if clear then (taken s).setStation e (some
          { x with exchanges := 0, failures := 0, busy := 0, redeliveries := 0, losses := 0, lastKind := none })
         else taken s))
    ∧ ∀ (l : LineId) (part : Byte),
      let c := AdminCmd.lineQuery (BitVec.ofNat 8 l) part clear buf
      Passes s c → goes c (lineReport l (s.line l) part.toNat)
        (if clear then (taken s).setLine l { s.line l with counters := .zero } else taken s))
  ∧ ∀ s : State, ∀ c ∈ s.admin.command, Works s → s.admin.phase = .reporting →
    let a := (addrAt c.record 16).toNat
    let done := fun (st : Status) (v : Nat) (m : List Host.Cell) =>
      { s with hostMem := m, admin := ⟨.completing, some { c with wait := none, result := some (st, v) }, false, none⟩ }
    (∃ m t, exec (.reportWrite .ok) s = .next t ∧ Written s.hostMem m a c.report ∧ AfterUnits (done .ok 32 m) t)
    ∧ ∀ landed, ∃ m t, exec (.reportWrite (.error landed)) s = .next t
      ∧ PartlyWritten s.hostMem m a c.report landed ∧ AfterUnits (done .hostWriteError 0 m) t

/-- The station report carries the entry's fields at their offsets, times to come in milliseconds and 0 once past; part 0 of the line report
carries run state, causes, phase, conflict count, flags, queue length, slots in use and the configuration, parts 1 and 2 the fifteen counters of
four bytes (R36, R170, section 11.4). -/
def Obligations.ReportsCarryTheFields : Prop :=
  (∀ (now : Nat) (e : EntryId) (x : Station), let b := stationReport now e x
      b.length = 32
      ∧ (byteAt b 0).toNat = e.val ∧ (byteAt b 1).toNat = x.line.val ∧ byteAt b 2 = BitVec.ofNat 8 x.addr
      ∧ byteAt b 3 = (match x.state with | .new => 1 | .online => 2 | .suspect => 3 | .offline => 4 | .detaching => 5)
      ∧ (∀ k, (byteAt b 4).getLsbD k = ((k == 0 && x.toggle) || (k == 1 && x.syncNeeded) || (k == 2 && x.redelivery)
          || (k == 3 && x.noticePending)))
      ∧ byteAt b 5 = BitVec.ofNat 8 x.failureCount ∧ byteAt b 6 = BitVec.ofNat 8 x.changes
      ∧ byteAt b 7 = (match x.lastKind with
          | none => 0 | some .done => 1 | some .data => 2 | some .empty => 3 | some .busy => 4 | some .refused => 5)
      ∧ halfAt b 8 = BitVec.ofNat 16 x.scanPeriod
      ∧ halfAt b 10 = BitVec.ofNat 16 (match x.holdUntil with | some t => t - now | none => 0)
      ∧ halfAt b 12 = BitVec.ofNat 16 (x.nextDue - now) ∧ halfAt b 14 = 0
      ∧ halfAt b 18 ++ halfAt b 16 = BitVec.ofNat 32 x.exchanges ∧ halfAt b 20 = BitVec.ofNat 16 x.failures
      ∧ halfAt b 22 = BitVec.ofNat 16 x.busy ∧ halfAt b 24 = BitVec.ofNat 16 x.redeliveries
      ∧ halfAt b 26 = BitVec.ofNat 16 x.losses ∧ halfAt b 28 = 0 ∧ halfAt b 30 = 0)
  ∧ (∀ (l : LineId) (x : Line),
      let b := lineReport l x 0
      let d := lineReport l x 1
      let f := lineReport l x 2
      let word := fun (bs : List Byte) k => halfAt bs (k + 2) ++ halfAt bs k
      let n := x.counters
      b.length = 32 ∧ d.length = 32 ∧ f.length = 32
      ∧ (byteAt b 0).toNat = l.val ∧ byteAt b 1 = 0
      ∧ byteAt b 2 = (match x.run with | .stopped => 0 | .starting => 1 | .running => 2 | .stopping => 3 | .faulted => 4)
      ∧ byteAt b 3 = (match x.faultCause with | none => 0 | some .notQuiet => 1 | some .stuck => 2 | some .conflict => 3)
      ∧ byteAt b 4 = (match x.lastFault with | none => 0 | some .notQuiet => 1 | some .stuck => 2 | some .conflict => 3)
      ∧ byteAt b 5 = (match x.phase with
          | none => 0 | some .idle => 1 | some .lead => 2 | some .sending => 3 | some .awaiting => 4 | some .receiving => 5
          | some .settle => 6)
      ∧ byteAt b 6 = BitVec.ofNat 8 x.conflictCount
      ∧ (∀ k, (byteAt b 7).getLsbD k = ((k == 0 && x.linePending) || (k == 1 && x.config.isSome)))
      ∧ byteAt b 8 = BitVec.ofNat 8 x.noticeQueue.length
      ∧ byteAt b 9 = BitVec.ofNat 8 ((List.finRange 8).filter fun i => (x.slot i).isSome).length
      ∧ halfAt b 10 = 0
      ∧ (x.config = none → ∀ k < 20, byteAt b (12 + k) = 0)
      ∧ (∀ c ∈ x.config,
          byteAt b 12 = (match c.mode with | .async => 0 | .clocked => 1) ∧ byteAt b 13 = BitVec.ofNat 8 c.rate
          ∧ byteAt b 14 = (match c.parity with | .none => 0 | .even => 1 | .odd => 2)
          ∧ byteAt b 15 = BitVec.ofNat 8 c.stopBits ∧ byteAt b 16 = BitVec.ofNat 8 c.lead
          ∧ byteAt b 17 = BitVec.ofNat 8 c.gapLimit ∧ byteAt b 18 = BitVec.ofNat 8 c.settle
          ∧ byteAt b 19 = BitVec.ofNat 8 c.suspectAfter ∧ byteAt b 20 = BitVec.ofNat 8 c.offlineAfter
          ∧ byteAt b 21 = BitVec.ofNat 8 c.busyLimit
          ∧ (byteAt b 22).toNat = (match c.noticeRing with | none => 4 | some r => r.val) ∧ byteAt b 23 = 0
          ∧ halfAt b 24 = BitVec.ofNat 16 c.respTimeout ∧ halfAt b 26 = BitVec.ofNat 16 c.busyHoldOff
          ∧ halfAt b 28 = BitVec.ofNat 16 c.probeInterval ∧ halfAt b 30 = 0)
      ∧ [word d 0, word d 4, word d 8, word d 12, word d 16, word d 20, word d 24, word d 28]
          = [n.attempts, n.delivered, n.busy, n.timeouts, n.check, n.parity, n.framing, n.truncated].map (BitVec.ofNat 32)
      ∧ [word f 0, word f 4, word f 8, word f 12, word f 16, word f 20, word f 24, word f 28]
          = [n.toggle, n.protocol, n.conflict, n.stray, n.late, n.scanStarves, n.poolStarves, 0].map (BitVec.ofNat 32))

/-! ## The ends of host-bus operations (chapters 3, 5, 6, 8 and 10) -/

namespace Sys2Proof.Claims

/-- The bootstrap record is valid (R173 step 3), by the bytes of its layout. -/
def BootValid (bs : List Byte) : Prop :=
  (byteAt bs 11).toNat ≤ 1 ∧ (∀ k, k ∈ [14, 15, 24, 25, 26, 27, 28, 29, 30, 31] → byteAt bs k = 0)
  ∧ ¬ Misplaced (addrAt bs 0) 32 2 12 (byteAt bs 8) ∧ ¬ Misplaced (addrAt bs 16) 16 3 13 (byteAt bs 9)
  ∧ byteAt bs 10 ≠ 0

/-- A submission record's form is right: the six conditions of R43. -/
def FormRight (r : SubRec) : Prop :=
  r.zerosOk = true ∧ 1 ≤ r.kind.toNat ∧ r.kind.toNat ≤ 4
  ∧ (r.kind = 4 → r.addr = 0) ∧ (r.kind ≠ 4 → 1 ≤ r.addr.toNat ∧ r.addr.toNat ≤ 126)
  ∧ r.retry.toNat ≤ 7 ∧ r.paramCount.toNat ≤ 8 ∧ r.outLen.toNat ≤ 64
  ∧ (r.kind = 1 → r.outLen = 0 ∧ 1 ≤ r.inLimit.toNat ∧ r.inLimit.toNat ≤ 64)
  ∧ (r.kind = 3 → r.paramCount = 0 ∧ r.outLen = 0 ∧ 1 ≤ r.inLimit.toNat ∧ r.inLimit.toNat ≤ 64)
  ∧ (r.kind = 2 ∨ r.kind = 4 → r.inLimit = 0
      ∧ 1 ≤ r.paramCount.toNat + r.outLen.toNat ∧ r.paramCount.toNat + r.outLen.toNat ≤ 64)
  ∧ (r.kind = 4 → r.force = false ∧ r.sync = false)

/-- What the events taken during the record read decide, the first taken first, none where none reaches the record: a detach reaches a record
of right form for its station (R42, R44). -/
def DecidedBy (r : SubRec) : List ReadEvent → Option Status → Prop
  | [], o => o = none
  | .decided st :: _, o => o = some st
  | .detached a :: rest, o =>
    let hits := FormRight r ∧ r.kind ≠ 4 ∧ r.addr.toNat = a
    (hits → o = some .detached) ∧ (¬ hits → DecidedBy r rest o)

/-- The slot has gone to FINISHING with a status, detail none and nothing transferred (R102, R103). -/
def Finished (y : Slot) (st : Status) : Prop := y.state = .finishing ∧ y.outcome = some ⟨st, .none, 0, 0⟩

/-- The slot is where a slot goes that would enter READY: DEFERRED while its station is held off or has redelivery pending, and ABORTED where a
graceful LINE_STOP waits and redelivery is pending (R45, R49, R166). -/
def EnteredReady (s : State) (l : LineId) (y : Slot) : Prop :=
  let stopping := (s.line l).run = .stopping ∧ (s.line l).abortStop = false
  (∀ st ∈ s.keyed l y.addr, stopping → st.redelivery = true → Finished y .aborted)
  ∧ (∀ st ∈ s.keyed l y.addr, ¬ (stopping ∧ st.redelivery = true) →
      y.outcome = none ∧ y.state = (if st.holdUntil.isSome = true ∨ st.redelivery = true then .deferred else .ready))
  ∧ (s.keyed l y.addr = none → y.state = .ready ∧ y.outcome = none)

/-- The record read `rd` of line `l` has ended: `u` is `s` with the ring's head and in-flight count advanced and the record in slot `i`, which
was FREE and now holds `y`, with the line's next age and the fields of R38; nothing else has changed (R42, R129). -/
structure RecordTaken (s : State) (l : LineId) (rd : IntakeRead) (bs : List Byte) (i : SlotId) (y : Slot) (u : State) : Prop where
  free : s.slot l i = none
  state : ∀ x ∈ s.ring rd.ring, u =
    (s.setRing rd.ring (some { x with
      head := (x.head + 1) % 2 ^ x.sizeCode, inFlight := x.inFlight + 1, fenced := x.fenced || y.fenceHeld })).setLine l
        { (s.line l).setSlot i (some y) with read := none, nextAge := (s.line l).nextAge + 1 }
  slot : y.record = bs ∧ y.ring = rd.ring ∧ y.age = (s.line l).nextAge ∧ y.attempts = 0 ∧ y.busy = 0 ∧ y.lastCause = none
    ∧ y.syncAttempt = false ∧ y.lastAttempt = false ∧ y.decided = none ∧ y.response = []

end Sys2Proof.Claims

/-- What a waiting command waits for has come about, and it completes with a status and a result value: LINE_START on RUNNING, LINE_STOP on
STOPPED, either on FAULTED with the cause, an abort stop on STOPPED or FAULTED, RING_DELETE on ABSENT with the abandoned count, STATION_DETACH on
the entry free with its index (R154, R155, R166). -/
def Sys2Proof.Claims.Met (s : State) (c : AdminCommand) (st : Status) (v : Nat) : Prop :=
  let fault := fun l : LineId => match (s.line l).faultCause with
    | none => 0 | some .notQuiet => 1 | some .stuck => 2 | some .conflict => 3
  match c.wait with
  | none => False
  | some (.lineStart l) => ((s.line l).run = .running ∧ st = .ok ∧ v = 0) ∨ ((s.line l).run = .faulted ∧ st = .lineFault ∧ v = fault l)
  | some (.lineStop l) => ((s.line l).run = .stopped ∧ st = .ok ∧ v = 0) ∨ ((s.line l).run = .faulted ∧ st = .lineFault ∧ v = fault l)
  | some (.lineAbort l) => ((s.line l).run = .stopped ∨ (s.line l).run = .faulted) ∧ st = .ok ∧ v = 0
  | some (.ringDelete r) => s.ring r = none ∧ st = .ok ∧ v = c.abandoned
  | some (.detach e) => s.station e = none ∧ st = .ok ∧ v = e.val

/-- What follows without a claim, when and with which effect. A fenced slot in WAITING alone of its ring on the line goes to READY or what R49
puts in its place; a DRAINING ring with no record in flight and no read in progress becomes ABSENT; a line in STOPPING by a graceful stop with
every slot FREE, no record read in progress and phase IDLE enters STOPPED; a waiting command whose condition is met completes with its status and
value, an abort stop moving a FAULTED line to STOPPED; a part in DISABLING with nothing in hand reaches OFF, and with ENABLE 1 begins to load
(R42, R47, R49, R68, R132, R154, R155, R166, R171, R173, R175). Model's choices it rests on: notes/assumptions/18, 47. -/
def Obligations.ConsequencesTakeEffect : Prop :=
  (∀ (s : State) (l : LineId) (i : SlotId),
      (s.enabled (.fence l i) = true ↔ Works s ∧ ∃ x ∈ s.slot l i, x.state = .waiting
        ∧ ∀ j, j ≠ i → ∀ y ∈ s.slot l j, y.ring ≠ x.ring)
      ∧ ∀ x ∈ s.slot l i, x.state = .waiting → x.outcome = none →
        ∃ y, s.perform (.fence l i) = s.setLine l ((s.line l).setSlot i (some y))
          ∧ y = { x with state := y.state, outcome := y.outcome } ∧ EnteredReady s l y)
  ∧ (∀ (s : State) (r : RingId),
      (s.enabled (.drain r) = true ↔ Works s ∧ (∃ x ∈ s.ring r, x.state = .draining ∧ x.inFlight = 0)
        ∧ ∀ l, ∀ rd ∈ (s.line l).read, rd.ring ≠ r)
      ∧ s.perform (.drain r) = s.setRing r none)
  ∧ (∀ (s : State) (l : LineId), let x := s.line l
      (s.enabled (.lineStopped l) = true ↔ Works s ∧ x.run = .stopping ∧ x.abortStop = false ∧ (∀ i, x.slot i = none)
        ∧ x.read = none ∧ x.phase = some .idle)
      ∧ s.perform (.lineStopped l) = s.setLine l (stoppedLine x))
  ∧ (∀ s : State,
      (s.enabled .adminEnd = true ↔ Works s ∧ s.admin.phase = .waiting ∧ ∃ c ∈ s.admin.command, ∃ st v, Met s c st v)
      ∧ ∀ c ∈ s.admin.command, s.admin.phase = .waiting → ∀ st v, Met s c st v →
        ∃ u, s.perform .adminEnd =
            { u with admin := ⟨.completing, some { c with wait := none, result := some (st, v) }, false, none⟩ }
          ∧ (∀ l, c.wait = some (.lineAbort l) → (s.line l).run = .faulted → u = s.setLine l (stoppedLine (s.line l)))
          ∧ ((∀ l, c.wait = some (.lineAbort l) → (s.line l).run ≠ .faulted) → u = s))
  ∧ ∀ s : State,
      (s.enabled .reachOff = true ↔ s.device = .disabling ∧ s.admin.phase = .idle
        ∧ (∀ l, let x := s.line l
            x.run = .stopped ∧ (∀ i, x.slot i = none) ∧ x.read = none ∧ x.txnWriter = none ∧ x.scanner.state = .idle
              ∧ x.notice = none)
        ∧ ∀ r, ∀ c ∈ s.cring r, c.write = none ∧ c.waiting = [])
      ∧ s.OffFrom (s.perform .reachOff)

/-- The bootstrap record read ends: a valid record makes ring 0 and C0 ACTIVE at their creation values and the part RUNNING and changes nothing
else; an invalid one faults it with BAD_BOOT and a bus error with BOOT_READ (R133, R136, R173, R176). Model's choices it rests on:
notes/assumptions/3, 7, 23, 24, 34, 41. -/
def Obligations.BootstrapReadStartsOrFaultsThePart : Prop :=
  ∀ s : State, s.device = .loading →
    (∀ bs : List Byte, BootValid bs → ∃ t, exec (.bootstrapRead (.ok bs)) s = .next t
      ∧ AfterUnits { (s.setRing 0 (some ⟨.active, addrAt bs 0, (byteAt bs 8).toNat, 0, 0, none, none, 0, 0, false⟩)).setCRing 0
          (some ⟨addrAt bs 16, (byteAt bs 9).toNat, 0, 0, 0, 0, true, (byteAt bs 10).toNat, (halfAt bs 12).toNat,
            (byteAt bs 11).getLsbD 0, 0, none, none, []⟩) with device := .running, loadAddr := none } t)
    ∧ (∀ bs : List Byte, ¬ BootValid bs → ∃ t, exec (.bootstrapRead (.ok bs)) s = .next t ∧ FaultedFrom s t .badBoot)
    ∧ ∃ t, exec (.bootstrapRead .error) s = .next t ∧ FaultedFrom s t .bootRead

/-- A bus error on a structural access faults the part with the code of the access: a record read RING_READ, a pool entry read POOL_READ, the
write of a completion record COMP_WRITE; of the failed record's bytes 0 to 14 only those that landed are written, and byte 15 is as it was (R128,
R138, R176). Model's choices it rests on: notes/assumptions/3, 7, 12, 23, 24. -/
def Obligations.StructuralBusErrorsFaultThePart : Prop :=
  ∀ s : State, Works s →
    (∀ l, (s.line l).read ≠ none → ∃ t, exec (.recordRead l .error) s = .next t ∧ FaultedFrom s t .ringRead)
    ∧ (∀ l, ∀ d ∈ (s.line l).scanner.delivery, (s.line l).scanner.state = .delivering → d.buffer = none →
        ∃ t, exec (.poolEntryRead l .error) s = .next t ∧ FaultedFrom s t .poolRead)
    ∧ ∀ r, ∀ c ∈ s.cring r, ∀ w ∈ c.write, ∀ landed, ∃ m t, exec (.completionWrite r (.error landed)) s = .next t
        ∧ PartlyWritten s.hostMem m (c.base.toNat + 16 * w.place) (w.bytes.take 15) landed
        ∧ FaultedFrom { s.setCRing r (some { c with write := none }) with hostMem := m } t .compWrite

/-- A record whose read ends is taken into a FREE slot and judged: an event of the read decides first, then form, then the station table by the
record's key; a record that fails completes with attempt count 0 and detail none and sets no fence (R42, R43, R44). Model's choices it rests on:
notes/assumptions/11, 20, 41. -/
def Obligations.RecordReadJudgesTheRecord : Prop :=
  ∀ (s : State) (l : LineId) (bs : List Byte), ∀ rd ∈ (s.line l).read, Works s → s.KeysOk → bs.length = 32 →
    s.ring rd.ring ≠ none → (∃ i, s.slot l i = none) →
    let r := decodeSub bs
    let ends := fun st => ∃ i y u t, exec (.recordRead l (.ok bs)) s = .next t ∧ AfterUnits u t
      ∧ RecordTaken s l rd bs i y u ∧ Finished y st ∧ y.fenceHeld = false ∧ y.payload = []
    (∀ st, DecidedBy r rd.events (some st) → ends st)
    ∧ (DecidedBy r rd.events none → ¬ FormRight r → ends .badRecord)
    ∧ (DecidedBy r rd.events none → FormRight r → r.kind ≠ 4 →
        ((∀ e, ∀ x ∈ s.station e, ¬ (x.line = l ∧ x.addr = r.addr.toNat)) → ends .noStation)
        ∧ ∀ e, ∀ x ∈ s.station e, x.line = l → x.addr = r.addr.toNat →
          (x.state = .detaching → ends .detached) ∧ (x.state = .offline → r.force = false → ends .stationOffline))

/-- A record that passes judgement is placed: FETCH and POLL with FENCE in WAITING and otherwise in READY or what R49 puts in its place, with an
empty held payload; STORE and BROADCAST in LOADING while payload bytes are read, which a payload of params alone ends at once and a buffer above
the top with HOST_READ_ERROR; FENCE sets the ring's fenced-outstanding flag (R38, R45, R46, R49, R90, R91, R129). Model's choices it rests on:
notes/assumptions/11, 28, 41. -/
def Obligations.RecordReadPlacesTheRecord : Prop :=
  ∀ (s : State) (l : LineId) (bs : List Byte), ∀ rd ∈ (s.line l).read, Works s → s.KeysOk → bs.length = 32 →
    s.ring rd.ring ≠ none → (∃ i, s.slot l i = none) →
    let r := decodeSub bs
    DecidedBy r rd.events none → FormRight r →
    (r.kind = 4 ∨ ∃ e, ∃ x ∈ s.station e, x.line = l ∧ x.addr = r.addr.toNat ∧ x.state ≠ .detaching
      ∧ (x.state = .offline → r.force = true)) →
    let params := r.params.take r.paramCount.toNat
    let sends := r.kind = 2 ∨ r.kind = 4
    ∃ i y u t, exec (.recordRead l (.ok bs)) s = .next t ∧ AfterUnits u t
      ∧ RecordTaken s l rd bs i y u ∧ y.fenceHeld = r.fence
      ∧ (sends → r.outLen ≠ 0 → r.buf.toNat + r.outLen.toNat ≤ 2 ^ 64 →
          y.state = .loading ∧ y.outcome = none ∧ y.payload = [])
      ∧ (sends → 2 ^ 64 < r.buf.toNat + r.outLen.toNat → r.outLen ≠ 0 → Finished y .hostReadError ∧ y.payload = [])
      ∧ (¬ sends ∨ r.outLen = 0 → y.payload = (if sends then params else [])
          ∧ (r.fence = true → y.state = .waiting ∧ y.outcome = none) ∧ (r.fence = false → EnteredReady s l y))

/-- The payload read of a slot in LOADING ends: an outcome decided during the read stands; otherwise an error completes HOST_READ_ERROR, and the
bytes follow the params in the held payload and the slot moves on to WAITING with FENCE and otherwise to READY or what R49 puts in its place
(R46, R90, R98). Model's choices it rests on: notes/assumptions/41. -/
def Obligations.PayloadReadMovesTheSlotOn : Prop :=
  ∀ (s : State) (l : LineId) (i : SlotId), ∀ x ∈ s.slot l i, Works s → x.state = .loading → x.outcome = none →
    let r := x.sub
    let ends := fun (b : BusRead) (y : Slot) => ∃ t, exec (.payloadRead l i b) s = .next t
      ∧ AfterUnits (s.setLine l ((s.line l).setSlot i (some y))) t
    (∀ st ∈ x.decided, ∀ bs, ∃ y, ends (.ok bs) y ∧ Finished y st
      ∧ y = { x with state := y.state, outcome := y.outcome })
    ∧ (∃ y, ends .error y ∧ Finished y (x.decided.getD .hostReadError)
        ∧ y = { x with state := y.state, outcome := y.outcome, payload := [] })
    ∧ (x.decided = none → ∀ bs : List Byte, bs.length = r.outLen.toNat → ∃ y, ends (.ok bs) y
        ∧ y = { x with state := y.state, outcome := y.outcome, payload := r.params.take r.paramCount.toNat ++ bs }
        ∧ (r.fence = true → y.state = .waiting ∧ y.outcome = none) ∧ (r.fence = false → EnteredReady s l y))

/-- The data write of a slot in STORING ends: the lesser of LEN and the in limit is in the buffer, byte k at buffer address + k, and the slot
completes OK, or OVERLENGTH where LEN is above the in limit, with that count as result value; an error completes HOST_WRITE_ERROR with the true
LEN and leaves each byte old or new. No other byte of host memory changes (R59, R96, R97, R102, R103). Model's choices it rests on:
notes/assumptions/12, 41. -/
def Obligations.DataWriteEndsTheStore : Prop :=
  ∀ (s : State) (l : LineId) (i : SlotId), ∀ x ∈ s.slot l i, Works s → x.state = .storing →
    let len := x.response.length
    let n := min len x.sub.inLimit.toNat
    let a := x.sub.buf.toNat
    let ends := fun (w : BusWrite) (o : SlotOutcome) (m : List Host.Cell) => ∃ t, exec (.dataWrite l i w) s = .next t
      ∧ AfterUnits { s.setLine l ((s.line l).setSlot i (some { x with state := .finishing, outcome := some o })) with hostMem := m } t
    let detail := if x.syncAttempt = true then Detail.synced else Detail.none
    (∃ m, Written s.hostMem m a (x.response.take n)
      ∧ ends .ok ⟨if x.sub.inLimit.toNat < len then .overlength else .ok, detail, len, n⟩ m)
    ∧ ∀ landed, ∃ m, PartlyWritten s.hostMem m a (x.response.take n) landed
      ∧ ends (.error landed) ⟨.hostWriteError, detail, len, 0⟩ m

/-- A delivery reads its pool entry and writes its response: a buffer below 2^56 is taken, one above is not written at all; at the end of the
write the SCAN_DATA record is composed with the station's state, status OK or HOST_WRITE_ERROR, and its write requested of the ring of the
reservation. No byte outside the buffer changes (R97, R105, R114, R115). Model's choices it rests on: notes/assumptions/12, 41. -/
def Obligations.DeliveryReadsItsBufferAndWritesIt : Prop :=
  ∀ (s : State) (l : LineId), ∀ d ∈ (s.line l).scanner.delivery, ∀ r ∈ (s.line l).scanner.reservation,
    Works s → (s.line l).scanner.state = .delivering →
    let put := fun (d' : Delivery) =>
      s.setLine l { s.line l with scanner := { (s.line l).scanner with delivery := some d' } }
    let decided := fun (b : Addr) (st : Status) =>
      (put { d with buffer := some b, status := some st, state := (s.keyed l d.addr).map (·.state) }).modCRing r
        fun c => { c with waiting := c.waiting ++ [.scanner l] }
    (d.buffer = none → ∀ bs : List Byte, bs.length = 8 → ∃ t, exec (.poolEntryRead l (.ok bs)) s = .next t
      ∧ if (addrAt bs 0).toNat < 2 ^ 56 then AfterUnits (put { d with buffer := some (addrAt bs 0) }) t
        else AfterUnits (decided (addrAt bs 0) .hostWriteError) t)
    ∧ ∀ b ∈ d.buffer, d.status = none →
      (∃ m t, exec (.scanDataWrite l .ok) s = .next t ∧ Written s.hostMem m b.toNat d.payload
        ∧ AfterUnits { decided b .ok with hostMem := m } t)
      ∧ ∀ landed, ∃ m t, exec (.scanDataWrite l (.error landed)) s = .next t
        ∧ PartlyWritten s.hostMem m b.toNat d.payload landed
        ∧ AfterUnits { decided b .hostWriteError with hostMem := m } t

/-- A completion write ends without error: the 16 bytes are in the place, the tail advances and the pass value flips where it wraps,
written-unreleased rises and reserved falls, the record is coalesced (urgent or at the threshold the cause is set, the count cleared and the
timer stopped, otherwise a stopped timer starts where t is not 0), and the writer is told (R60, R129, R138, R143, R144, R152). Model's choices it
rests on: notes/assumptions/12, 41. -/
def Obligations.CompletionWriteEndsInOneStep : Prop :=
  ∀ (s : State) (r : CRingId), ∀ c ∈ s.cring r, ∀ w ∈ c.write, Works s →
    let size := 2 ^ c.sizeCode
    let tail := (c.tail + 1) % size
    let n := min 255 (c.unsignalled + 1)
    let urgent := match w.record.kind with
      | .txn => w.record.status ≠ .ok
      | .admin => w.record.status ≠ .ok
      | .scanData => w.record.status = .hostWriteError
      | .stationNotice => True
      | .lineNotice => True
    let signal := urgent ∨ c.threshold ≤ n
    ∃ u t, exec (.completionWrite r .ok) s = .next t ∧ AfterUnits u t
      ∧ Written s.hostMem u.hostMem (c.base.toNat + 16 * w.place) w.bytes
      ∧ (signal → u.intcause = s.intcause ||| BitVec.twoPow 6 r.val) ∧ (¬ signal → u.intcause = s.intcause)
      ∧ (∃ d, u.crings = (s.setCRing r (some d)).crings
          ∧ d = { c with
            tail := tail, pass := if tail = 0 then !c.pass else c.pass, written := c.written + 1,
            reserved := c.reserved - 1, write := none, unsignalled := d.unsignalled, timer := d.timer }
          ∧ (signal → d.unsignalled = 0 ∧ d.timer = none)
          ∧ (¬ signal → d.unsignalled = n
              ∧ d.timer = if c.timer = none ∧ c.time ≠ 0 then some s.nowUs else c.timer))
      ∧ match w.writer with
        | .slot l i =>
          u = { s with hostMem := u.hostMem, intcause := u.intcause, crings := u.crings, rings := u.rings, lines := u.lines }
          ∧ u.lines = (s.setLine l { (s.line l).setSlot i none with txnWriter := none }).lines
          ∧ (s.slot l i = none → u.rings = s.rings)
          ∧ ∀ x ∈ s.slot l i, u.rings = (s.modRing x.ring fun q =>
              { q with inFlight := q.inFlight - 1, fenced := q.fenced && !x.fenceHeld }).rings
        | .admin =>
          u = { s.modRing 0 (fun q => { q with inFlight := 0 }) with
            hostMem := u.hostMem, intcause := u.intcause, crings := u.crings, admin := ⟨.idle, none, false, none⟩ }
        | .scanner l =>
          u = { s.setLine l { s.line l with scanner := { (s.line l).scanner with
              state := .idle, reservation := none, delivery := none } } with
            hostMem := u.hostMem, intcause := u.intcause, crings := u.crings }
        | .notice l =>
          u = { s.setLine l { s.line l with notice := none } with
            hostMem := u.hostMem, intcause := u.intcause, crings := u.crings }

/-! ## Lines: run states and phases (chapter 4) -/

namespace Sys2Proof.Claims

/-- Device time has reached the moment `due` (in µs): it is `due`, or later where it was later already. -/
def reached (s : State) (due : Nat) : State := { s with deviceTime := BitVec.ofNat 64 (max s.nowUs due) }

/-- The µs, rounded up, that `n` character times of a configured line take: bits per character (10 and the parity bit and the stop bits, or 8)
over the bit rate of its rate code (R1, section 11.6). -/
def charTimes (c : LineConfig) (n : Nat) : Nat :=
  let bits := match c.mode with
    | .async => 10 + (if c.parity = .none then 0 else 1) + c.stopBits
    | .clocked => 8
  let rate := match c.mode with
    | .async => [1200, 2400, 4800, 9600, 19200, 38400, 57600, 115200, 230400, 460800, 921600].getD c.rate 1
    | .clocked => [125000, 250000, 500000, 1000000, 2000000, 4000000].getD c.rate 1
  (n * bits * 1000000 + rate - 1) / rate

/-- The part as it was but for device time, the named line, station entries and completion rings' reservations and requests; of the other
lines only a refused Scanner may claim again. -/
structure OnlyLine (s u : State) (l : LineId) : Prop where
  state : u = { s with deviceTime := u.deviceTime, crings := u.crings, lines := u.lines, stations := u.stations }
  crings : CRingsKept s u
  others : ∀ k, k ≠ l → u.line k = { s.line k with scanner := { (s.line k).scanner with refused := (u.line k).scanner.refused } }

/-- The line enters FAULTED with a cause (R71, R87). -/
structure LineFaulted (cause : LineFault) (x y : Line) : Prop where
  work : WorkEnded .lineFault x y
  run : y.run = .faulted ∧ y.faultCause = some cause ∧ y.lastFault = some cause ∧ y.phase = none
  outputs : y.pins = ⟨false, false, false, [], x.pins.rxd⟩ ∧ y.inReception = false
  timers : y.timers = ⟨none, none, none, none, none, none, none, none⟩
  notice : y.linePending = true

/-- A timer of line `l` fires a line fault: the start limit in STARTING, the settle limit in SETTLE, the stuck timer in service, each on an
async line, at the moment its time runs out (R65, R71, R83, R84). -/
def FaultTimer (s : State) (l : LineId) (g : LineConfig) (i : Instr) (cause : LineFault) (due : Nat) : Prop :=
  let x := s.line l
  x.config = some g ∧ g.mode = .async ∧
  ((i = .startLimit l ∧ cause = .notQuiet ∧ x.run = .starting ∧ ∃ t ∈ x.timers.startLimit, due = t + 200000)
  ∨ (i = .settleLimit l ∧ cause = .notQuiet ∧ x.phase = some .settle ∧ ∃ t ∈ x.timers.settleLimit, due = t + charTimes g 256)
  ∨ (i = .stuckLimit l ∧ cause = .stuck ∧ (x.run = .starting ∨ x.run = .running ∨ x.run = .stopping)
      ∧ ∃ t ∈ x.timers.stuck, due = t + charTimes g 64))

end Sys2Proof.Claims

/-- STARTING ends in RUNNING with phase IDLE when the line has been quiet for 16 character times, on a clocked line when one settle time has
passed; SETTLE ends in IDLE at the settle time. The timers of the wait stop, on entering RUNNING the Scanner may claim again, and nothing else
changes (R65, R66, R67, R83, R119). Model's choices it rests on: notes/assumptions/6, 25, 41. -/
def Obligations.QuietTimersEndInRunningAndIdle : Prop :=
  (∀ (s : State) (l : LineId), ∀ g ∈ (s.line l).config, Works s → (s.line l).run = .starting →
      let x := s.line l
      let up := { x with
        run := .running, phase := some .idle, scanner := { x.scanner with refused := false },
        timers := { x.timers with startQuiet := none, startLimit := none, settle := none } }
      (g.mode = .async → ∀ t ∈ x.timers.startQuiet, ∃ t', exec (.startQuiet l) s = .next t'
        ∧ AfterUnits ((reached s (t + charTimes g 16)).setLine l up) t')
      ∧ (g.mode = .clocked → ∀ t ∈ x.timers.settle, ∃ t', exec (.clockedStartWait l) s = .next t'
        ∧ AfterUnits ((reached s (t + charTimes g g.settle)).setLine l up) t'))
  ∧ (∀ (s : State) (l : LineId), ∀ g ∈ (s.line l).config, ∀ t ∈ (s.line l).timers.settle,
      Works s → (s.line l).phase = some .settle →
      let x := s.line l
      ∃ u, exec (.settleTime l) s = .next u ∧ AfterUnits ((reached s (t + charTimes g g.settle)).setLine l { x with
        phase := some .idle, timers := { x.timers with settle := none, settleLimit := none } }) u)

/-- The start limit, the settle limit and the stuck limit of an async line put it in FAULTED with their cause: the attempt is abandoned, its
station set sync-needed or, in DETACHING, freed, the slots complete LINE_FAULT, and a line notice is pending (R26, R34, R61, R65, R71, R83, R84,
R87). Under DISABLING a stuck line comes to STOPPED at once. Model's choices it rests on: notes/assumptions/6, 25, 32, 41. -/
def Obligations.LineFaultTimersFaultTheLine : Prop :=
  ∀ (s : State) (l : LineId) (g : LineConfig) (i : Instr) (cause : LineFault) (due : Nat),
    Works s → FaultTimer s l g i cause due → s.LinesOk → s.AttemptsOk → s.ScannersOk → s.KeysOk →
      (s.device = .running ∨ cause ≠ .stuck → ∃ u t, exec i s = .next t ∧ AfterUnits u t
        ∧ OnlyLine s u l ∧ u.deviceTime = (reached s due).deviceTime ∧ LineFaulted cause (s.line l) (u.line l)
        ∧ (∀ e, s.station e = none → u.station e = none)
        ∧ ∀ e, ∀ x ∈ s.station e,
            let hit := x.line = l ∧ ∃ a ∈ (s.line l).attempt, a.addr = x.addr
            if hit ∧ x.state = .detaching then u.station e = none
            else if hit then u.station e = some { x with syncNeeded := true } else u.station e = some x)
      ∧ (s.device = .disabling → cause = .stuck → ∃ u t, exec i s = .next t ∧ AfterUnits u t
        ∧ OnlyLine s u l ∧ WorkEnded .lineFault (s.line l) (u.line l) ∧ stoppedLine (u.line l) = u.line l
        ∧ (u.line l).lastFault = some .stuck ∧ (u.line l).linePending = false)

/-- At the end of the lead time SENDING begins with the first character; at the end of each character the sent position rises and the next one
begins with mark bit 0; after the last the driver goes off and the line awaits the response, SEL staying asserted and filler going out on a
clocked line. An abort stop comes to STOPPED at the end of the character instead. A character's bits on TXD are, async, a start bit at space, the
eight data bits least significant first, the mark bit, the parity bit where configured, which makes the ones of data, mark and parity even or
odd, and the stop bits at mark; clocked, the data bits most significant first (R2, R5, R6, R7, R8, R69, R75, R76, R78). Model's choices it rests
on: notes/assumptions/6, 25, 26, 31, 41. -/
def Obligations.SendingGoesOnCharacterByCharacter : Prop :=
  (∀ (s : State) (l : LineId), ∀ g ∈ (s.line l).config, ∀ t ∈ (s.line l).timers.lead, ∀ a ∈ (s.line l).attempt,
      Works s → (s.line l).phase = some .lead → (s.line l).sentPos = 0 →
      let x := s.line l
      ∃ u, exec (.leadTime l) s = .next u ∧ AfterUnits ((reached s (t + g.bitsUs g.lead)).setLine l { x with
        phase := some .sending, timers := { x.timers with lead := none },
        pins := { x.pins with clocking := decide (g.mode = .clocked), shifting := txBits g (byteAt a.frame 0) true } }) u)
  ∧ (∀ (s : State) (l : LineId), ∀ g ∈ (s.line l).config, Works s → (s.line l).phase = some .sending →
      let x := s.line l
      let goes := fun y => ∃ t, exec (.characterSent l) s = .next t ∧ AfterUnits (s.setLine l y) t
      (x.abortStop = true → goes (stoppedLine x))
      ∧ ∀ a ∈ x.attempt, x.abortStop = false → x.conflict = false → (g.mode = .async → x.sentPos + 1 ≤ x.echoes) →
        (x.sentPos + 1 < a.frame.length → goes { x with
          sentPos := x.sentPos + 1
          pins := { x.pins with shifting := txBits g (byteAt a.frame (x.sentPos + 1)) false } })
        ∧ (a.frame.length ≤ x.sentPos + 1 → a.addr ≠ 0 → goes { x with
          sentPos := x.sentPos + 1, phase := some .awaiting, fillers := 0, timeoutHeld := false
          timers := { x.timers with response := some s.nowUs }
          pins := { x.pins with de := false, shifting := if g.mode = .clocked then List.replicate 8 true else [] } }))
  ∧ ∀ (c : LineConfig) (v : Byte) (mark : Bool),
    let data := [v.getLsbD 0, v.getLsbD 1, v.getLsbD 2, v.getLsbD 3, v.getLsbD 4, v.getLsbD 5, v.getLsbD 6, v.getLsbD 7]
    (c.mode = .clocked → txBits c v mark = data.reverse)
    ∧ (c.mode = .async → ∃ par : List Bool,
        txBits c v mark = false :: data ++ [mark] ++ par ++ List.replicate c.stopBits true
        ∧ (c.parity = .none → par = [])
        ∧ (c.parity = .even → par.length = 1 ∧ (data ++ [mark] ++ par).count true % 2 = 0)
        ∧ (c.parity = .odd → par.length = 1 ∧ (data ++ [mark] ++ par).count true % 2 = 1))

/-- What a received character is outside an exchange and where it goes on with one, on an async line with its report: in STARTING a stray, and
the quiet starts again; in IDLE a stray, and the line settles; in SETTLE late; in SENDING an echo, which agrees or is a CONFLICT for the end of
the character; in AWAITING with mark 0 a stray unless a timeout is held, and the response's ADDR with mark 1; in RECEIVING the next character of
the frame, and the gap timer starts again (R3, R65, R74, R76, R79, R80, R83, R88). Model's choices it rests on: notes/assumptions/16, 31, 41, 44.
-/
def Obligations.AsyncCharacterGoesOn : Prop :=
  ∀ (s : State) (l : LineId) (raw : RawChar), ∀ g ∈ (s.line l).config, Works s → g.mode = .async →
    let x := { s.line l with inReception := false }
    let r := reportOf g raw
    let now := some s.nowUs
    let atMark := x.pins.rxd = .mark
    let goes := fun y => ∃ t, exec (.characterReceived l raw) s = .next t ∧ AfterUnits (s.setLine l y) t
    let stray := { x.counters with stray := min 4294967295 (x.counters.stray + 1) }
    (x.run = .starting → x.phase = none → goes { x with counters := stray, timers := { x.timers with
      startQuiet := if atMark then now else x.timers.startQuiet } })
    ∧ (x.run = .running ∨ x.run = .stopping →
      (x.phase = some .idle → goes { x with
        counters := stray, phase := some .settle, conflict := false, timeoutHeld := false
        pins := ⟨false, false, false, [], x.pins.rxd⟩
        timers := { x.timers with
          lead := none, response := none, gap := none, settle := if atMark then now else none, settleLimit := now } })
      ∧ (x.phase = some .settle → goes { x with
        counters := { x.counters with late := min 4294967295 (x.counters.late + 1) }
        timers := { x.timers with settle := if atMark then now else x.timers.settle } })
      ∧ (∀ a ∈ x.attempt, x.phase = some .sending → x.conflict = false →
        let agrees := x.echoes ≤ x.sentPos ∧ r.value = byteAt a.frame x.echoes ∧ (r.mark = true ↔ x.echoes = 0)
          ∧ r.parityError = false ∧ r.framingError = false
        (agrees → goes { x with echoes := x.echoes + 1 }) ∧ (¬ agrees → goes { x with conflict := true }))
      ∧ (∀ a ∈ x.attempt, x.phase = some .awaiting → r.framingError = false →
        (r.mark = false → x.timeoutHeld = false → goes { x with counters := stray })
        ∧ (r.mark = true → r.parityError = false → r.value = BitVec.ofNat 8 (128 + a.addr) → goes { x with
            phase := some .receiving, timeoutHeld := false, rx := { x.rx with addr := some r.value }
            timers := { x.timers with response := none, gap := now } }))
      ∧ (∀ a ∈ x.attempt, x.phase = some .receiving → r.framingError = false → r.parityError = false → r.mark = false →
        let goesOn := fun rx => goes { x with rx := rx, timers := { x.timers with gap := now } }
        (x.rx.ctrl = none → goesOn { x.rx with ctrl := some r.value })
        ∧ (x.rx.ctrl ≠ none → x.rx.len = none → r.value.toNat ≤ 64 → goesOn { x.rx with len := some r.value })
        ∧ ∀ n ∈ x.rx.len, x.rx.ctrl ≠ none →
          (x.rx.payload.length < n.toNat → goesOn { x.rx with payload := x.rx.payload ++ [r.value] })
          ∧ (n.toNat ≤ x.rx.payload.length → x.rx.check = [] → goesOn { x.rx with check := [r.value] })))

/-- On a clocked line a character shifted in is the response's in the hunt: 0xFF is filler, discarded and counted toward the response timeout,
and 128 plus the address begins the frame, whose characters are stored whatever their value; outside AWAITING and RECEIVING nothing is received
(R5, R7, R85). Model's choices it rests on: notes/assumptions/30, 41. -/
def Obligations.ClockedCharacterGoesOn : Prop :=
  ∀ (s : State) (l : LineId) (raw : RawChar), ∀ g ∈ (s.line l).config, Works s → g.mode = .clocked →
    let x := s.line l
    let goes := fun y => ∃ t, exec (.characterReceived l raw) s = .next t ∧ AfterUnits (s.setLine l y) t
    (x.phase ≠ some .awaiting → x.phase ≠ some .receiving → goes x)
    ∧ ∀ a ∈ x.attempt,
      (x.phase = some .awaiting → x.fillers < g.respTimeout →
        (raw.data = 0xFF → goes { x with fillers := x.fillers + 1 })
        ∧ (raw.data = BitVec.ofNat 8 (128 + a.addr) → raw.data ≠ 0xFF → goes { x with
            phase := some .receiving, timeoutHeld := false, rx := { x.rx with addr := some raw.data }
            timers := { x.timers with response := none, gap := none } }))
      ∧ (x.phase = some .receiving →
        let goesOn := fun rx => goes { x with rx := rx, timers := { x.timers with gap := none } }
        (x.rx.ctrl = none → goesOn { x.rx with ctrl := some raw.data })
        ∧ (x.rx.ctrl ≠ none → x.rx.len = none → raw.data.toNat ≤ 64 → goesOn { x.rx with len := some raw.data })
        ∧ ∀ n ∈ x.rx.len, x.rx.ctrl ≠ none →
          (x.rx.payload.length < n.toNat → goesOn { x.rx with payload := x.rx.payload ++ [raw.data] })
          ∧ (n.toNat ≤ x.rx.payload.length → x.rx.check = [] → goesOn { x.rx with check := [raw.data] }))

/-- A transition of RXD to space on a line whose async receiver runs starts the stuck timer, stops the gap, settle and start quiet timers and
begins a character; one to mark stops the stuck timer and, with no character in reception, starts the quiet timers. A false start discards the
character without a report. A response timeout that runs out during a reception is held (R3, R65, R79, R80, R83, R84). Model's choices it rests
on: notes/assumptions/6, 16, 17, 25, 27, 33, 36, 41. -/
def Obligations.ReceiverEventsOfRxd : Prop :=
  (∀ (s : State) (l : LineId), ∀ g ∈ (s.line l).config, Works s → g.mode = .async →
      (s.line l).run = .starting ∨ (s.line l).run = .running ∨ (s.line l).run = .stopping →
      let x := s.line l
      let now := some s.nowUs
      let goes := fun v y => ∃ t, exec (.rxdTransition l v) s = .next t ∧ AfterUnits (s.setLine l y) t
      goes x.pins.rxd x
      ∧ (x.pins.rxd = .mark → goes .space { x with
          inReception := true, pins := { x.pins with rxd := .space }
          timers := { x.timers with stuck := now, gap := none, settle := none, startQuiet := none } })
      ∧ (x.pins.rxd = .space → goes .mark { x with
          pins := { x.pins with rxd := .mark }
          timers := { x.timers with
            stuck := none
            settle := if x.inReception = false ∧ x.phase = some .settle then now else x.timers.settle
            startQuiet := if x.inReception = false ∧ x.run = .starting then now else x.timers.startQuiet } }))
  ∧ (∀ (s : State) (l : LineId), ∀ g ∈ (s.line l).config, Works s → g.mode = .async →
      (s.line l).run = .starting ∨ (s.line l).run = .running ∨ (s.line l).run = .stopping →
      (s.line l).inReception = true → (s.line l).timeoutHeld = false →
      let x := s.line l
      ∃ t, exec (.falseStart l) s = .next t ∧ AfterUnits (s.setLine l { x with
        inReception := false
        timers := { x.timers with
          settle := if x.pins.rxd = .mark ∧ x.phase = some .settle then some s.nowUs else x.timers.settle
          startQuiet := if x.pins.rxd = .mark ∧ x.run = .starting then some s.nowUs else x.timers.startQuiet } }) t)
  ∧ (∀ (s : State) (l : LineId), ∀ g ∈ (s.line l).config, ∀ t ∈ (s.line l).timers.response,
      Works s → (s.line l).phase = some .awaiting → g.mode = .async → (s.line l).inReception = true →
      let x := s.line l
      ∃ u, exec (.responseTimeout l) s = .next u
        ∧ AfterUnits ((reached s (t + charTimes g g.respTimeout)).setLine l
            { x with timeoutHeld := true, timers := { x.timers with response := none } }) u)

/-! ## Attempts: judgement and outcome (chapters 1 to 6) -/

namespace Sys2Proof.Claims

/-- The counter of a failure cause risen by 1 (R82, R88). -/
def counted (n : Counters) (c : Cause) : Counters :=
  match c with
  | .timeout => { n with timeouts := min 4294967295 (n.timeouts + 1) }
  | .check => { n with check := min 4294967295 (n.check + 1) }
  | .parity => { n with parity := min 4294967295 (n.parity + 1) }
  | .framing => { n with framing := min 4294967295 (n.framing + 1) }
  | .truncated => { n with truncated := min 4294967295 (n.truncated + 1) }
  | .protocol => { n with protocol := min 4294967295 (n.protocol + 1) }
  | .toggle => { n with toggle := min 4294967295 (n.toggle + 1) }
  | .conflict => { n with conflict := min 4294967295 (n.conflict + 1) }

/-- The frame that the character `v` completes: its second CHECK character (R80). -/
def Completes (x : Line) (v : Byte) (rx : RxRecord) : Prop :=
  x.phase = some .receiving ∧ x.rx.ctrl ≠ none ∧ (∃ n ∈ x.rx.len, n.toNat ≤ x.rx.payload.length)
    ∧ (∃ w, x.rx.check = [w]) ∧ rx = { x.rx with check := x.rx.check ++ [v] }

/-- An event completes a response frame of line `l`'s attempt without a receive error (R80, R85). -/
def FrameEnds (s : State) (l : LineId) (g : LineConfig) (rx : RxRecord) (i : Instr) : Prop :=
  ∃ raw, i = .characterReceived l raw ∧ Completes (s.line l) raw.data rx
    ∧ (g.mode = .async → (reportOf g raw).framingError = false ∧ (reportOf g raw).parityError = false ∧ raw.mark = false)

/-- The event `i` fails the attempt `a` of line `l` with a cause, at device time `due` or later; `kind` is the kind of a response that passed
check and legality (R7, R78 to R81, R85). -/
def Fails (s : State) (l : LineId) (g : LineConfig) (a : Attempt) (i : Instr) (c : Cause) (due : Nat) (kind : Option RespKind) : Prop :=
  let x := s.line l
  let async := g.mode = .async
  (kind = none ∧ c = .timeout ∧ i = .responseTimeout l ∧ x.phase = some .awaiting ∧
    ((async ∧ x.inReception = false ∧ ∃ t ∈ x.timers.response, due = t + charTimes g g.respTimeout)
      ∨ (¬ async ∧ g.respTimeout ≤ x.fillers ∧ due = s.nowUs)))
  ∨ (kind = none ∧ c = .truncated ∧ i = .gapLimit l ∧ x.phase = some .receiving
    ∧ ∃ t ∈ x.timers.gap, due = t + charTimes g g.gapLimit)
  ∨ (kind = none ∧ c = .timeout ∧ i = .falseStart l ∧ async ∧ x.phase = some .awaiting ∧ x.inReception = true
    ∧ x.timeoutHeld = true ∧ due = s.nowUs)
  ∨ (due = s.nowUs ∧ ∃ raw, i = .characterReceived l raw ∧
    let r := reportOf g raw
    ((kind = none ∧ async ∧ x.phase = some .awaiting ∧ c = .timeout ∧ x.timeoutHeld = true ∧ r.framingError = false
        ∧ r.mark = false)
      ∨ (kind = none ∧ async ∧ x.phase = some .awaiting ∧
        ((c = .framing ∧ r.framingError = true)
          ∨ (c = .parity ∧ r.framingError = false ∧ r.mark = true ∧ r.parityError = true)
          ∨ (c = .protocol ∧ r.framingError = false ∧ r.mark = true ∧ r.parityError = false
              ∧ r.value ≠ BitVec.ofNat 8 (128 + a.addr))))
      ∨ (kind = none ∧ ¬ async ∧ x.phase = some .awaiting ∧ c = .protocol ∧ x.fillers < g.respTimeout
          ∧ raw.data ≠ 0xFF ∧ raw.data ≠ BitVec.ofNat 8 (128 + a.addr))
      ∨ (kind = none ∧ async ∧ x.phase = some .receiving ∧
        ((c = .framing ∧ r.framingError = true)
          ∨ (c = .parity ∧ r.framingError = false ∧ r.parityError = true)
          ∨ (c = .protocol ∧ r.framingError = false ∧ r.parityError = false ∧ r.mark = true)))
      ∨ (kind = none ∧ x.phase = some .receiving ∧ c = .protocol ∧ x.rx.ctrl ≠ none ∧ x.rx.len = none ∧ 64 < raw.data.toNat
          ∧ (async → r.framingError = false ∧ r.parityError = false ∧ r.mark = false))
      ∨ ∃ rx, FrameEnds s l g rx i ∧ judgeFrame a rx = (.failure c, kind)))

/-- A CONFLICT of line `l`'s attempt is taken at the event `i`: the end of a character in SENDING for which one has been found or whose echo is
missing, or a character that an async line receives in LEAD (R75, R76). -/
def ConflictFound (s : State) (l : LineId) (g : LineConfig) (i : Instr) : Prop :=
  let x := s.line l
  (i = .characterSent l ∧ x.phase = some .sending ∧ x.abortStop = false
    ∧ (x.conflict = true ∨ (g.mode = .async ∧ x.echoes ≤ x.sentPos)))
  ∨ (∃ raw, i = .characterReceived l raw ∧ x.phase = some .lead ∧ g.mode = .async)

/-- The Line Controller at the entry to SETTLE with an outcome other than CONFLICT: driver and outputs off, the exchange's timers stopped, the
settle timer from 0 where the line is quiet and the settle limit timer on an async line, the attempt absent, the conflict count 0 (R6, R73,
R77, R82, R83). -/
structure Settles (g : LineConfig) (now : Nat) (x y : Line) : Prop where
  phase : y.run = x.run ∧ y.phase = some .settle ∧ y.attempt = none ∧ y.conflictCount = 0 ∧ y.config = x.config
    ∧ y.faultCause = x.faultCause ∧ y.lastFault = x.lastFault
  pins : y.pins = ⟨false, false, false, [], x.pins.rxd⟩
  stopped : y.timers.lead = none ∧ y.timers.response = none ∧ y.timers.gap = none ∧ y.timers.stuck = x.timers.stuck
  settle : y.timers.settle = if g.mode = .clocked ∨ (y.pins.rxd = .mark ∧ y.inReception = false) then some now else none
  limit : y.timers.settleLimit = if g.mode = .async then some now else none
  kept : y.read = x.read ∧ y.notice = x.notice ∧ y.nextAge = x.nextAge ∧ y.txnWriter = x.txnWriter ∧ y.linePending = x.linePending
    ∧ y.intakeLast = x.intakeLast ∧ y.arbLast = x.arbLast

/-- Everything but line `l`, entry `e` and device time is as it was. -/
def OnlyLineAndEntry (s u : State) (l : LineId) (e : EntryId) : Prop :=
  u = { s with deviceTime := u.deviceTime, lines := u.lines, stations := u.stations }
  ∧ (∀ k, k ≠ l → u.line k = s.line k) ∧ ∀ f, f ≠ e → u.station f = s.station f

/-- The notice of an entry whose state has changed, or not (R31). -/
def Noticed (changed : Prop) (e : EntryId) (x z : Station) (q q' : List EntryId) : Prop :=
  (changed → z.noticePending = true ∧ z.changes = min 255 (x.changes + 1) ∧ q' = if e ∈ q then q else q ++ [e])
  ∧ (¬ changed → z.noticePending = x.noticePending ∧ z.changes = x.changes ∧ q' = q)

/-- What the move of its station to OFFLINE makes of another slot of the station: without FORCE as any event that ends waiting slots, with FORCE
a slot deferred for a redelivery alone returns to READY (R25, R49). -/
def OfflineReaches (x : Station) (a b : Slot) : Prop :=
  if a.sub.force = true then
    b = if a.state = .deferred ∧ x.holdUntil = none then { a with state := .ready } else a
  else SlotCut .stationOffline a b

/-- The status of a slot without attempts left (R56). -/
def endStatus (c : Cause) : Status := if c = .timeout then .noResponse else .lineError

/-- The slot has finished with a status and a failure cause as its detail (R103). -/
def FinishedFor (y : Slot) (st : Status) (c : Cause) : Prop := y.state = .finishing ∧ y.outcome = some ⟨st, .cause c, 0, 0⟩

end Sys2Proof.Claims

/-- An attempt of a slot to a station that fails with a cause other than CONFLICT: the line settles and counts the cause; the entry's failure
count, counters, sync-needed and state move by the thresholds, with all the effects of a move to OFFLINE; the slot's attempt is counted and it
finishes, or returns to READY or DEFERRED while a retry is left; an entry in DETACHING is freed and ends the slot (R7, R24, R25, R34, R35, R53,
R56, R58, R78 to R82, R85). Model's choices it rests on: notes/assumptions/6, 16, 25, 30, 33, 41, 44. -/
def Obligations.FailedAttemptOfASlot : Prop :=
  ∀ (s : State) (l : LineId) (g : LineConfig) (a : Attempt) (i : Instr) (c : Cause) (due : Nat) (kind : Option RespKind)
    (j : SlotId) (y : Slot) (e : EntryId) (x : Station),
    Works s → (s.line l).config = some g → (s.line l).run = .running ∨ (s.line l).run = .stopping →
    (s.line l).attempt = some a → Fails s l g a i c due kind → s.KeysOk →
    a.requester = .slot j → s.slot l j = some y → y.state = .active → y.outcome = none → y.addr = a.addr →
    s.station e = some x → x.line = l → x.addr = a.addr →
    let n := min 15 (x.failureCount + 1)
    let next : StationState := match x.state with
      | .offline => .offline
      | .detaching => .detaching
      | .new => if g.offlineAfter ≤ n then .offline else .new
      | .online => if g.offlineAfter ≤ n then .offline else if g.suspectAfter ≤ n then .suspect else .online
      | .suspect => if g.offlineAfter ≤ n then .offline else .suspect
    let moved := x.state ≠ .offline ∧ next = .offline
    ∃ u t, exec i s = .next t ∧ AfterUnits u t ∧ OnlyLineAndEntry s u l e
      ∧ u.deviceTime = (reached s due).deviceTime
      ∧ Settles g u.nowUs (s.line l) (u.line l)
      ∧ (u.line l).counters = { counted (s.line l).counters c with stray := (u.line l).counters.stray }
      ∧ (u.line l).scanner = (s.line l).scanner
      ∧ (x.state = .detaching → u.station e = none ∧ (u.line l).noticeQueue = (s.line l).noticeQueue.filter (· ≠ e))
      ∧ (x.state ≠ .detaching → ∃ z, u.station e = some z
          ∧ z = { x with
              state := next, failureCount := n, failures := min 65535 (x.failures + 1), lastKind := kind <|> x.lastKind
              exchanges := min 4294967295 (x.exchanges + 1), syncNeeded := z.syncNeeded, redelivery := z.redelivery
              losses := z.losses, nextDue := z.nextDue, noticePending := z.noticePending, changes := z.changes }
          ∧ (z.syncNeeded = true ↔ x.syncNeeded = true ∨ c = .toggle ∨ moved)
          ∧ (moved → z.redelivery = false ∧ z.nextDue = u.nowMs + g.probeInterval
              ∧ z.losses = if x.redelivery = true then min 65535 (x.losses + 1) else x.losses)
          ∧ (¬ moved → z.redelivery = x.redelivery ∧ z.nextDue = x.nextDue ∧ z.losses = x.losses)
          ∧ Noticed (next ≠ x.state) e x z (s.line l).noticeQueue (u.line l).noticeQueue)
      ∧ (∀ k, s.slot l k = none → u.slot l k = none)
      ∧ (∀ k, k ≠ j → ∀ b ∈ s.slot l k, ∃ b' ∈ u.slot l k,
          if moved ∧ b.addr = a.addr ∧ b.state ≠ .active then OfflineReaches x b b' else b' = b)
      ∧ ∃ b, u.slot l j = some b
        ∧ b = { y with state := b.state, outcome := b.outcome, attempts := y.attempts + 1, lastCause := some c }
        ∧ if y.lastAttempt = true ∨ x.state = .detaching then FinishedFor b (endStatus c) c
          else if moved ∧ y.sub.force = false then FinishedFor b .stationOffline c
          else if y.attempts < y.sub.retry.toNat then EnteredReady u l b
          else FinishedFor b (endStatus c) c

/-- A response DONE, DATA, EMPTY or REFUSED to a slot's attempt that passes every test is delivered: the entry's toggle becomes the opposite of
the one carried, sync-needed clears after a sync request, the failure count becomes 0, NEW, SUSPECT and OFFLINE move to ONLINE, an entry that
leaves OFFLINE is due a scan period on, redelivery clears; an entry in DETACHING is freed and leaves the notice queue; the slot stores its DATA
or finishes OK or REFUSED, with detail SYNCED after a sync request, and HOST_WRITE_ERROR at once for a buffer above the top (R17, R21 to R23,
R30, R34, R53, R54, R59, R91, R94, R108). Model's choices it rests on: notes/assumptions/16, 28, 41, 44, 45. -/
def Obligations.DeliveredResponseOfASlot : Prop :=
  ∀ (s : State) (l : LineId) (g : LineConfig) (a : Attempt) (i : Instr) (rx : RxRecord) (k : RespKind) (len : Nat) (data : List Byte)
    (j : SlotId) (y : Slot) (e : EntryId) (x : Station),
    Works s → (s.line l).config = some g → (s.line l).run = .running ∨ (s.line l).run = .stopping →
    (s.line l).attempt = some a → FrameEnds s l g rx i → judgeFrame a rx = (.response k len data, some k) → k ≠ .busy → s.KeysOk →
    a.requester = .slot j → s.slot l j = some y → y.state = .active → y.addr = a.addr →
    s.station e = some x → x.line = l → x.addr = a.addr →
    let detail := if y.syncAttempt = true then Detail.synced else Detail.none
    let ends := fun (b : Slot) (st : Status) (n : Nat) => b.state = .finishing ∧ b.outcome = some ⟨st, detail, n, 0⟩
    ∃ u t, exec i s = .next t ∧ AfterUnits u t ∧ OnlyLineAndEntry s u l e ∧ u.deviceTime = s.deviceTime
      ∧ Settles g s.nowUs (s.line l) (u.line l)
      ∧ (u.line l).counters =
          { (s.line l).counters with delivered := min 4294967295 ((s.line l).counters.delivered + 1) }
      ∧ (u.line l).scanner = (s.line l).scanner
      ∧ (x.state = .detaching → u.station e = none ∧ (u.line l).noticeQueue = (s.line l).noticeQueue.filter (· ≠ e))
      ∧ (x.state ≠ .detaching → ∃ z, u.station e = some z
          ∧ z = { x with
              state := .online, failureCount := 0, toggle := !a.toggle, redelivery := false, lastKind := some k
              exchanges := min 4294967295 (x.exchanges + 1), syncNeeded := x.syncNeeded && !a.sync
              losses := if x.redelivery = true ∧ a.sync = true then min 65535 (x.losses + 1) else x.losses
              nextDue := if x.state = .offline then s.nowMs + x.scanPeriod else x.nextDue
              noticePending := z.noticePending, changes := z.changes }
          ∧ Noticed (x.state ≠ .online) e x z (s.line l).noticeQueue (u.line l).noticeQueue)
      ∧ (∀ m, s.slot l m = none → u.slot l m = none)
      ∧ (∀ m, m ≠ j → ∀ b ∈ s.slot l m, ∃ b' ∈ u.slot l m, b' =
          if x.state ≠ .detaching ∧ x.redelivery = true ∧ x.holdUntil = none ∧ b.addr = a.addr ∧ b.state = .deferred then
            { b with state := .ready } else b)
      ∧ ∃ b, u.slot l j = some b
        ∧ b = { y with state := b.state, outcome := b.outcome, response := b.response, attempts := y.attempts + 1 }
        ∧ (k = .refused → ends b .refused len) ∧ (k = .done ∨ k = .empty → ends b .ok len)
        ∧ (k = .data → b.response = data
            ∧ (y.sub.buf.toNat + min data.length y.sub.inLimit.toNat ≤ 2 ^ 64 → b.state = .storing ∧ b.outcome = y.outcome)
            ∧ (2 ^ 64 < y.sub.buf.toNat + min data.length y.sub.inLimit.toNat → 0 < min data.length y.sub.inLimit.toNat →
                ends b .hostWriteError data.length))

/-- A BUSY response to a slot's attempt holds the station off for the line's hold-off, leaves toggle, sync-needed, failure count and state, uses
no attempt, and defers the slot unless its busy count is now above the busy limit or it takes no retry; the station's READY slots are deferred
too. An entry in DETACHING is freed instead, and its slot ends STATION_BUSY (R16, R27, R34, R49, R55, R58, R108). Model's choices it rests on:
notes/assumptions/16, 41, 44. -/
def Obligations.BusyResponseOfASlot : Prop :=
  ∀ (s : State) (l : LineId) (g : LineConfig) (a : Attempt) (i : Instr) (rx : RxRecord) (len : Nat) (data : List Byte)
    (j : SlotId) (y : Slot) (e : EntryId) (x : Station),
    Works s → (s.line l).config = some g → (s.line l).run = .running ∨ (s.line l).run = .stopping →
    (s.line l).attempt = some a → FrameEnds s l g rx i → judgeFrame a rx = (.response .busy len data, some .busy) → s.KeysOk →
    a.requester = .slot j → s.slot l j = some y → y.state = .active → y.outcome = none → y.addr = a.addr →
    s.station e = some x → x.line = l → x.addr = a.addr →
    let hold := s.nowMs + g.busyHoldOff
    ∃ u t, exec i s = .next t ∧ AfterUnits u t ∧ OnlyLineAndEntry s u l e ∧ u.deviceTime = s.deviceTime
      ∧ Settles g s.nowUs (s.line l) (u.line l)
      ∧ (u.line l).counters = { (s.line l).counters with busy := min 4294967295 ((s.line l).counters.busy + 1) }
      ∧ (u.line l).scanner = (s.line l).scanner
      ∧ (x.state = .detaching → u.station e = none ∧ (u.line l).noticeQueue = (s.line l).noticeQueue.filter (· ≠ e))
      ∧ (x.state ≠ .detaching → (u.line l).noticeQueue = (s.line l).noticeQueue
          ∧ u.station e = some { x with
            holdUntil := some hold, nextDue := hold, busy := min 65535 (x.busy + 1), lastKind := some .busy
            exchanges := min 4294967295 (x.exchanges + 1) })
      ∧ (∀ m, s.slot l m = none → u.slot l m = none)
      ∧ (∀ m, m ≠ j → ∀ b ∈ s.slot l m, ∃ b' ∈ u.slot l m, b' = { b with state := b'.state, outcome := b'.outcome }
          ∧ if x.state ≠ .detaching ∧ b.addr = a.addr ∧ b.state = .ready then b.outcome = none → EnteredReady u l b' else b' = b)
      ∧ ∃ b, u.slot l j = some b
        ∧ b = { y with state := b.state, outcome := b.outcome, busy := y.busy + 1 }
        ∧ if x.state = .detaching ∨ y.lastAttempt = true ∨ g.busyLimit < y.busy + 1 then Finished b .stationBusy
          else EnteredReady u l b

/-- The outcome of a scan poll of an entry in any state. A DATA response takes the pool entry at the head, whose address is base + 8 × head, and
becomes a delivery; without a pool entry it is discarded with redelivery set, its toggle unflipped, and the station's READY slots are deferred;
any other outcome returns the reservation and ends in IDLE. A delivered response moves the entry to ONLINE, clears redelivery, lets its DEFERRED
slots go and sets the next due time a scan period on; BUSY holds the station off and defers its slots; a failure other than CONFLICT runs failure
accounting and leaves the station due a probe interval on in OFFLINE and a scan period on otherwise; an entry in DETACHING is freed (R23 to R25,
R27, R29, R30, R34, R82, R108, R111, R113, R116, R121). Model's choices it rests on: notes/assumptions/6, 16, 25, 30, 33, 41, 44. -/
def Obligations.ScanPollOutcome : Prop :=
  ∀ (s : State) (l : LineId) (g : LineConfig) (a : Attempt) (i : Instr) (e : EntryId) (x : Station) (q : CRingId) (sync : Bool),
    Works s → (s.line l).config = some g → (s.line l).run = .running ∨ (s.line l).run = .stopping →
    (s.line l).attempt = some a → s.KeysOk → a.requester = .scanner → (s.line l).scanner.state = .polling →
    (s.line l).scanner.polled = some (e, sync) → (s.line l).scanner.reservation = some q →
    s.station e = some x → x.line = l → x.addr = a.addr →
    let goes := fun (u : State) => ∃ t, exec i s = .next t ∧ AfterUnits u t
      ∧ Settles g u.nowUs (s.line l) (u.line l)
      ∧ u = { s with crings := u.crings, lines := u.lines, stations := u.stations, pool := u.pool, deviceTime := u.deviceTime }
      ∧ (∀ f, f ≠ e → u.station f = s.station f)
      ∧ (∀ m, s.slot l m = none → u.slot l m = none)
      ∧ (x.state = .detaching → u.station e = none ∧ (u.line l).noticeQueue = (s.line l).noticeQueue.filter (· ≠ e)
          ∧ (u.line l).slots = (s.line l).slots)
    let n := (s.line l).counters
    let deferred := fun (u : State) => ∀ m, ∀ b ∈ s.slot l m, ∃ b' ∈ u.slot l m,
      b' = { b with state := b'.state, outcome := b'.outcome }
      ∧ if b.addr = a.addr ∧ b.state = .ready then b.outcome = none → EnteredReady u l b' else b' = b
    (∀ rx k len data, FrameEnds s l g rx i → judgeFrame a rx = (.response k len data, some k) →
      let seen := { x with exchanges := min 4294967295 (x.exchanges + 1), lastKind := some k }
      let delivers := fun (u : State) =>
        (u.line l).counters = { n with delivered := min 4294967295 (n.delivered + 1) }
        ∧ (x.state ≠ .detaching →
          (∃ z, u.station e = some z
            ∧ z = { seen with
                state := .online, failureCount := 0, toggle := !a.toggle, syncNeeded := x.syncNeeded && !a.sync
                redelivery := false, nextDue := s.nowMs + x.scanPeriod
                losses := if x.redelivery = true ∧ a.sync = true then min 65535 (x.losses + 1) else x.losses
                noticePending := z.noticePending, changes := z.changes }
            ∧ Noticed (x.state ≠ .online) e x z (s.line l).noticeQueue (u.line l).noticeQueue)
          ∧ ∀ m, ∀ b ∈ s.slot l m, ∃ b' ∈ u.slot l m, b' =
            if x.redelivery = true ∧ x.holdUntil = none ∧ b.addr = a.addr ∧ b.state = .deferred then
              { b with state := .ready } else b)
      ∃ u, goes u ∧ u.deviceTime = s.deviceTime
        ∧ (k ≠ .data → u.pool = s.pool ∧ Returned s u l q)
        ∧ (k = .done ∨ k = .empty ∨ k = .refused → delivers u)
        ∧ (k = .busy → (u.line l).counters = { n with busy := min 4294967295 (n.busy + 1) }
            ∧ (x.state ≠ .detaching → (u.line l).noticeQueue = (s.line l).noticeQueue ∧ deferred u
                ∧ u.station e = some { seen with
                    holdUntil := some (s.nowMs + g.busyHoldOff), nextDue := s.nowMs + g.busyHoldOff
                    busy := min 65535 (x.busy + 1) }))
        ∧ (k = .data → ∀ p ∈ s.pool, p.head ≠ p.tail → delivers u
            ∧ u.pool = some { p with head := (p.head + 1) % 2 ^ p.sizeCode } ∧ u.crings = s.crings
            ∧ (∀ m, m ≠ l → u.line m = s.line m)
            ∧ (u.line l).scanner = { (s.line l).scanner with
                state := .delivering, polled := none
                delivery := some ⟨e, a.addr, p.head, BitVec.ofNat 64 (p.base.toNat + 8 * p.head), data, none, none, none⟩ })
        ∧ (k = .data → (∀ p ∈ s.pool, p.head = p.tail) → u.pool = s.pool ∧ Returned s u l q
            ∧ (u.line l).counters = { n with poolStarves := min 4294967295 (n.poolStarves + 1) }
            ∧ (x.state ≠ .detaching → (u.line l).noticeQueue = (s.line l).noticeQueue ∧ deferred u
                ∧ u.station e = some { seen with
                    redelivery := true, redeliveries := min 65535 (x.redeliveries + 1), nextDue := s.nowMs })))
    ∧ ∀ c due kind, Fails s l g a i c due kind →
      let count := min 15 (x.failureCount + 1)
      let next : StationState := match x.state with
        | .offline => .offline
        | .detaching => .detaching
        | .new => if g.offlineAfter ≤ count then .offline else .new
        | .online => if g.offlineAfter ≤ count then .offline else if g.suspectAfter ≤ count then .suspect else .online
        | .suspect => if g.offlineAfter ≤ count then .offline else .suspect
      let moved := x.state ≠ .offline ∧ next = .offline
      ∃ u, goes u ∧ u.deviceTime = (reached s due).deviceTime ∧ u.pool = s.pool ∧ Returned s u l q
        ∧ (u.line l).counters = { counted n c with stray := (u.line l).counters.stray }
        ∧ (x.state ≠ .detaching →
          (∃ z, u.station e = some z
            ∧ z = { x with
                state := next, failureCount := count, failures := min 65535 (x.failures + 1), lastKind := kind <|> x.lastKind
                exchanges := min 4294967295 (x.exchanges + 1), syncNeeded := z.syncNeeded
                redelivery := x.redelivery && !decide moved
                losses := if moved ∧ x.redelivery = true then min 65535 (x.losses + 1) else x.losses
                nextDue := u.nowMs + if next = .offline then g.probeInterval else x.scanPeriod
                noticePending := z.noticePending, changes := z.changes }
            ∧ (z.syncNeeded = true ↔ x.syncNeeded = true ∨ c = .toggle ∨ moved)
            ∧ Noticed (next ≠ x.state) e x z (s.line l).noticeQueue (u.line l).noticeQueue)
          ∧ ∀ m, ∀ b ∈ s.slot l m, ∃ b' ∈ u.slot l m,
            if moved ∧ b.addr = a.addr then OfflineReaches x b b' else b' = b)

/-- A broadcast whose last character has been sent without conflict ends "sent": the line settles, no entry changes, and the slot finishes OK
with detail none and response length 0 (R15, R57, R78). Model's choices it rests on: notes/assumptions/16, 41. -/
def Obligations.BroadcastEndsSent : Prop :=
  ∀ (s : State) (l : LineId) (g : LineConfig) (a : Attempt) (j : SlotId) (y : Slot),
    Works s → (s.line l).config = some g → (s.line l).run = .running ∨ (s.line l).run = .stopping → s.KeysOk →
    (s.line l).phase = some .sending → (s.line l).abortStop = false → (s.line l).conflict = false →
    (s.line l).attempt = some a → a.addr = 0 → a.frame.length = (s.line l).sentPos + 1 →
    (g.mode = .async → (s.line l).sentPos + 1 ≤ (s.line l).echoes) →
    a.requester = .slot j → s.slot l j = some y →
    ∃ u t, exec (.characterSent l) s = .next t ∧ AfterUnits u t
      ∧ u = { s with lines := u.lines } ∧ (∀ k, k ≠ l → u.line k = s.line k)
      ∧ Settles g s.nowUs (s.line l) (u.line l) ∧ (u.line l).counters = (s.line l).counters
      ∧ (u.line l).slots = ((s.line l).setSlot j (some
          { y with state := .finishing, attempts := y.attempts + 1, outcome := some ⟨.ok, .none, 0, 0⟩ })).slots

/-- A CONFLICT ends the attempt: found in SENDING it is taken at the end of the character, on an async line that receives a character in LEAD at
once. It counts 1 more, runs no failure accounting on the station, and the third in a row faults the line. A slot with a retry left returns to
READY or what R49 puts in its place, and under the fault ends LINE_FAULT (ABORTED where a graceful stop had found redelivery pending); one
without, with the last-attempt mark or of an entry in DETACHING ends LINE_ERROR; a broadcast is retried alike; a scan poll returns its
reservation and its station's next due time is set a scan period on, or a probe interval on in OFFLINE; an entry in DETACHING is freed (R24, R34,
R56 to R58, R61, R71, R75 to R77, R108, R111, R166). Model's choices it rests on: notes/assumptions/31, 41, 44. -/
def Obligations.ConflictEndsTheAttempt : Prop :=
  ∀ (s : State) (l : LineId) (g : LineConfig) (a : Attempt) (i : Instr),
    Works s → (s.line l).config = some g → (s.line l).run = .running ∨ (s.line l).run = .stopping → s.KeysOk → s.LinesOk →
    (s.line l).attempt = some a → ConflictFound s l g i →
    (a.requester = .scanner → ∃ e b, (s.line l).scanner.polled = some (e, b) ∧ ∃ x ∈ s.station e, x.line = l ∧ x.addr = a.addr) →
    let third := 3 ≤ (s.line l).conflictCount + 1
    ∃ u t, exec i s = .next t ∧ AfterUnits u t
      ∧ u = { s with crings := u.crings, lines := u.lines, stations := u.stations } ∧ CRingsKept s u
      ∧ (∀ k, k ≠ l → u.line k = { s.line k with scanner := { (s.line k).scanner with refused := (u.line k).scanner.refused } })
      ∧ (u.line l).counters = counted (s.line l).counters .conflict
      ∧ (u.line l).conflictCount = (s.line l).conflictCount + 1
      ∧ (u.line l).attempt = none ∧ (u.line l).pins = ⟨false, false, false, [], (s.line l).pins.rxd⟩
      ∧ (¬ third → (u.line l).phase = some .settle ∧ (u.line l).run = (s.line l).run)
      ∧ (third → (u.line l).run = .faulted ∧ (u.line l).phase = none ∧ (u.line l).faultCause = some .conflict
          ∧ (u.line l).lastFault = some .conflict ∧ (u.line l).linePending = true)
      ∧ (∀ m, s.slot l m = none → u.slot l m = none)
      ∧ (∀ m, a.requester ≠ .slot m → ∀ b ∈ s.slot l m, ∃ b' ∈ u.slot l m,
          if third then SlotCut .lineFault b b' else b' = b)
      ∧ (∀ e, ∀ x ∈ s.station e, ¬ (x.line = l ∧ x.addr = a.addr) → u.station e = some x)
      ∧ (∀ e, s.station e = none → u.station e = none)
      ∧ (∀ e, ∀ x ∈ s.station e, x.line = l → x.addr = a.addr → x.state = .detaching →
          u.station e = none ∧ (u.line l).noticeQueue = (s.line l).noticeQueue.filter (· ≠ e))
      ∧ (∀ j, ∀ y ∈ s.slot l j, a.requester = .slot j → y.state = .active → y.outcome = none → y.addr = a.addr →
          (a.addr = 0 ∨ ∃ e, ∃ x ∈ s.station e, x.line = l ∧ x.addr = a.addr) →
          let noRetry := y.lastAttempt = true ∨ (∃ st ∈ s.keyed l a.addr, st.state = .detaching) ∨ y.sub.retry.toNat ≤ y.attempts
          let aborts := (s.line l).run = .stopping ∧ ∃ st ∈ s.keyed l a.addr, st.redelivery = true
          (∀ e, ∀ x ∈ s.station e, x.line = l → x.addr = a.addr → x.state ≠ .detaching →
            u.station e = some { x with exchanges := min 4294967295 (x.exchanges + 1) })
          ∧ ∃ b, u.slot l j = some b
            ∧ b = { y with state := b.state, outcome := b.outcome, attempts := y.attempts + 1, lastCause := some .conflict }
            ∧ if noRetry then FinishedFor b .lineError .conflict
              else if third then Finished b (if aborts then .aborted else .lineFault) else EnteredReady s l b)
      ∧ ∀ e, ∀ x ∈ s.station e, ∀ b q, a.requester = .scanner → x.line = l → x.addr = a.addr →
          (s.line l).scanner.state = .polling → (s.line l).scanner.polled = some (e, b) →
          (s.line l).scanner.reservation = some q →
          Returned s u l q
          ∧ (x.state ≠ .detaching → u.station e = some { x with
              exchanges := min 4294967295 (x.exchanges + 1)
              nextDue := s.nowMs + if x.state = .offline then g.probeInterval else x.scanPeriod })

/-- A complete response is judged check, legality, echo in this order: CHECK, PROTOCOL, TOGGLE, and a frame that passes is a response with its
kind, LEN and payload; the kind is recorded once check and legality have passed, and with the outcome the phase moves to SETTLE (R9, R12, R17,
R35, R81). -/
def Obligations.ResponseFramesAreJudgedInOrder : Prop :=
  ∀ (a : Attempt) (req : ReqKind) (addr : Nat) (toggle sync : Bool) (body : List Byte) (k n : Byte) (data check : List Byte),
    a.frame = requestFrame addr req toggle sync body →
    let rx : RxRecord := ⟨some (BitVec.ofNat 8 (128 + addr)), some k, some n, data, check⟩
    let good := check = checkChars ([BitVec.ofNat 8 (128 + addr), k, n] ++ data)
    let high := k.toNat / 16 = 0
    let code := k.toNat % 8
    let kinds : List (Nat × RespKind) := match req with
      | .fetch => [(2, .data), (4, .busy), (5, .refused)]
      | .store => [(1, .done), (4, .busy), (5, .refused)]
      | .poll => [(2, .data), (3, .empty), (4, .busy), (5, .refused)]
    let legal := fun kd => high ∧ (code, kd) ∈ kinds ∧ if kd = .data then 1 ≤ n.toNat ∧ n.toNat ≤ 64 else n = 0
    (¬ good → judgeFrame a rx = (.failure .check, none))
    ∧ (good → (∀ kd, ¬ legal kd) → judgeFrame a rx = (.failure .protocol, none))
    ∧ (good → ∀ kd, legal kd →
        (k.getLsbD 3 ≠ toggle → judgeFrame a rx = (.failure .toggle, some kd))
        ∧ (k.getLsbD 3 = toggle → judgeFrame a rx = (.response kd n.toNat data, some kd)))
    ∧ ∀ (s : State) (l : LineId) (kind : Option RespKind),
        ((s.endAttempt l (judgeFrame a rx).1 kind).line l).phase = some .settle

/-- The check value of a frame: a 16-bit register of ones takes the covered bytes in order, each from its top bit, shifting up with a 0 and
combining with 0x1021 where its top bit differed from the data bit, with no inversion at the end; it is sent high byte first, and a received
frame is good when its CHECK characters equal it and otherwise fails CHECK (R13). -/
def Obligations.CheckValueOfAFrame : Prop :=
  checkValue [] = 0xFFFF#16
  ∧ (∀ (bs : List Byte) (v : Byte), checkValue (bs ++ [v]) =
      [7, 6, 5, 4, 3, 2, 1, 0].foldl (fun (reg : BitVec 16) k =>
        if reg.getLsbD 15 = v.getLsbD k then reg <<< 1 else (reg <<< 1) ^^^ 0x1021#16) (checkValue bs))
  ∧ (∀ bs : List Byte, ∃ hi lo : Byte, checkChars bs = [hi, lo] ∧ hi ++ lo = checkValue bs)
  ∧ (∀ (addr : Nat) (k : ReqKind) (tg sy : Bool) (data : List Byte), requestFrame addr k tg sy data =
      let body := [BitVec.ofNat 8 addr, requestCtrl k tg sy, BitVec.ofNat 8 data.length] ++ data
      body ++ checkChars body)
  ∧ (∀ (a c n : Byte) (data : List Byte) (hi lo : Byte),
      RxRecord.checkGood ⟨some a, some c, some n, data, [hi, lo]⟩ = true ↔ hi ++ lo = checkValue ([a, c, n] ++ data))
  ∧ ∀ (q : Attempt) (a c n : Byte) (data : List Byte) (hi lo : Byte), hi ++ lo ≠ checkValue ([a, c, n] ++ data) →
      judgeFrame q ⟨some a, some c, some n, data, [hi, lo]⟩ = (.failure .check, none)

/-! ## Stations and coalescing by device time (R28, R108, R145) -/

/-- The end of a hold-off sets hold-until to none and returns the station's DEFERRED slots to READY unless redelivery is pending; a due time
changes no state of its own: device time has reached it and the Scanner looks for work; when a coalescing timer reaches t its ring's cause is
set, the unsignalled count becomes 0 and the timer stops (R28, R49, R107 to R109, R144, R145). Model's choices it rests on: notes/assumptions/6,
35, 41. -/
def Obligations.StationTimesAreReached : Prop :=
  (∀ (s : State) (e : EntryId), ∀ x ∈ s.station e, ∀ ms ∈ x.holdUntil, Works s → s.KeysOk →
      ∃ u t, exec (.holdOffEnd e) s = .next t ∧ AfterUnits u t
        ∧ u = { (reached s (ms * 1000)).setStation e (some { x with holdUntil := none }) with lines := u.lines }
        ∧ (∀ k, k ≠ x.line → u.line k = s.line k)
        ∧ u.line x.line = { s.line x.line with slots := (u.line x.line).slots }
        ∧ ∀ i, u.slot x.line i = (s.slot x.line i).map fun a =>
            if x.redelivery = false ∧ a.addr = x.addr ∧ a.state = .deferred then { a with state := .ready } else a)
  ∧ (∀ (s : State) (e : EntryId), ∀ x ∈ s.station e, Works s →
      ∃ t, exec (.nextDue e) s = .next t ∧ AfterUnits (reached s (x.nextDue * 1000)) t)
  ∧ (∀ (s : State) (r : CRingId), ∀ c ∈ s.cring r, ∀ t ∈ c.timer, Works s →
      ∃ u, exec (.coalescingTimer r) s = .next u ∧ AfterUnits
        { (reached s (t + c.time)).setCRing r (some { c with unsignalled := 0, timer := none }) with
          intcause := s.intcause ||| BitVec.twoPow 6 r.val } u)

/-! ## Records: decoding and encoding agree (section 11.2) -/

/-- Every admin command, submission record and bootstrap record is read back from its 32 bytes with every field at every value, and a record that
is read as a command is the bytes of that command (R153, R179, R180, section 11.2). -/
def Obligations.RecordsRoundTrip : Prop :=
  ((∀ (tag : Half) (c : AdminCmd), (encodeAdmin tag c).length = 32 ∧ decodeAdmin (encodeAdmin tag c) = some c
      ∧ halfAt (encodeAdmin tag c) 0 = tag)
    ∧ ∀ (bs : List Byte) (c : AdminCmd), bs.length = 32 → decodeAdmin bs = some c → bs = encodeAdmin (halfAt bs 0) c)
  ∧ ((∀ r : SubRec, r.params.length = 8 → r.flags.toNat < 8 → r.zerosOk = true →
      (encodeSub r).length = 32 ∧ decodeSub (encodeSub r) = r)
    ∧ ∀ r : BootRec, r.zerosOk = true → (encodeBoot r).length = 32 ∧ decodeBoot (encodeBoot r) = r)

/-- The 16 bytes of a completion record carry its fields at their offsets, the pass flag alone in byte 15, and in a SCAN_DATA record the low 56
bits of the buffer address in bytes 8 to 14. A TXN record carries its slot's tag, ring, counts and outcome and the state of the entry with its
key, an ADMIN record its command's status and result value and the entry it names, a SCAN_DATA record its delivery, and a notice its entry or
line as it stood at the take (R101 to R104, R115, R118, R154, R181, section 11.3, section 11.6). Model's choices it rests on:
notes/assumptions/46. -/
def Obligations.CompletionRecordLayout : Prop :=
  (∀ (r : CompRecord) (pass : Bool), let b := r.bytes pass
    b.length = 16 ∧ halfAt b 0 = r.tag ∧ byteAt b 5 = r.addr
    ∧ byteAt b 3 = (match r.status with
        | .ok => 0 | .refused => 1 | .overlength => 2 | .hostWriteError => 3 | .hostReadError => 4 | .stationBusy => 5
        | .noResponse => 6 | .lineError => 7 | .stationOffline => 8 | .noStation => 9 | .detached => 10 | .badRecord => 11
        | .aborted => 12 | .lineFault => 13 | .badParam => 14 | .wrongState => 15 | .noRoom => 16 | .notFound => 17
        | .inUse => 18)
    ∧ (byteAt b 2).extractLsb' 0 4 = (match r.kind with
        | .txn => 1#4 | .admin => 2#4 | .scanData => 3#4 | .stationNotice => 4#4 | .lineNotice => 5#4)
    ∧ (byteAt b 2).extractLsb' 4 4 = (match r.state with
        | none => 0#4 | some .new => 1#4 | some .online => 2#4 | some .suspect => 3#4 | some .offline => 4#4
        | some .detaching => 5#4)
    ∧ (byteAt b 4).extractLsb' 0 4 = BitVec.ofNat 4 r.source ∧ (byteAt b 4).extractLsb' 4 4 = BitVec.ofNat 4 r.attempts
    ∧ byteAt b 6 = BitVec.ofNat 8 r.respLen ∧ byteAt b 7 = BitVec.ofNat 8 r.busy
    ∧ byteAt b 15 = (if pass then 1 else 0)
    ∧ (r.kind ≠ .scanData → byteAt b 8 = r.detail ∧ halfAt b 9 = r.result ∧ ∀ k < 4, byteAt b (11 + k) = 0)
    ∧ (r.kind = .scanData → (addrAt b 8).extractLsb' 0 56 = r.buffer))
  ∧ (∀ (s : State) (l : LineId) (i : SlotId), ∀ x ∈ s.slot l i, ∀ o ∈ x.outcome, s.recordOf (.slot l i) = some {
      kind := .txn, tag := x.sub.tag, state := (s.keyed l x.sub.addr.toNat).map (·.state), status := o.status
      source := x.ring.val, attempts := x.attempts, addr := x.sub.addr, respLen := o.respLen, busy := min 255 x.busy
      detail := (match o.detail with
        | .none => 0 | .cause .timeout => 1 | .cause .check => 2 | .cause .parity => 3 | .cause .framing => 4
        | .cause .truncated => 5 | .cause .protocol => 6 | .cause .toggle => 7 | .cause .conflict => 8 | .synced => 9)
      result := BitVec.ofNat 16 o.result, buffer := 0 })
  ∧ (∀ (s : State) (tag : Half) (c : AdminCmd), ∀ k ∈ s.admin.command, ∀ st v,
      k.record = encodeAdmin tag c → k.result = some (st, v) →
      let named : Option (Byte × Option Station) := match c with
        | .stationAttach line addr _ => some (addr, ((List.finRange 8).find? (·.val == line.toNat)).bind (s.keyed · addr.toNat))
        | .stationDetach line addr => some (addr, ((List.finRange 8).find? (·.val == line.toNat)).bind (s.keyed · addr.toNat))
        | .stationScan line addr _ => some (addr, ((List.finRange 8).find? (·.val == line.toNat)).bind (s.keyed · addr.toNat))
        | .stationQuery index _ _ =>
          let x := ((List.finRange 128).find? (·.val == index.toNat)).bind s.station
          some (BitVec.ofNat 8 ((x.map (·.addr)).getD 0), x)
        | _ => none
      s.recordOf .admin = some {
        kind := .admin, tag := tag, state := (named.bind (·.2)).map (·.state), status := st, source := 0, attempts := 0
        addr := (named.map (·.1)).getD 0, respLen := 0, busy := 0, detail := 0, result := BitVec.ofNat 16 v, buffer := 0 })
  ∧ (∀ (s : State) (l : LineId), ∀ d ∈ (s.line l).scanner.delivery, ∀ st ∈ d.status, ∀ b ∈ d.buffer,
      s.recordOf (.scanner l) = some {
        kind := .scanData, tag := BitVec.ofNat 16 d.entry.val, state := d.state, status := st, source := l.val, attempts := 1
        addr := BitVec.ofNat 8 d.addr, respLen := d.payload.length, busy := 0, detail := 0, result := 0
        buffer := b.extractLsb' 0 56 })
  ∧ (∀ (s : State) (l : LineId) (e : EntryId) (rest : List EntryId), ∀ x ∈ s.station e,
      (s.line l).linePending = false → (s.line l).noticeQueue = e :: rest → (s.takeNotice l).map (·.1) = some {
        kind := .stationNotice, tag := BitVec.ofNat 16 e.val, state := some x.state, status := .ok, source := x.line.val
        attempts := 0, addr := BitVec.ofNat 8 x.addr, respLen := 0, busy := 0, detail := 0
        result := BitVec.ofNat 16 x.changes, buffer := 0 })
  ∧ ∀ (s : State) (l : LineId), (s.line l).linePending = true → (s.takeNotice l).map (·.1) = some {
      kind := .lineNotice, tag := 0, state := none, status := .ok, source := l.val, attempts := 0, addr := 0, respLen := 0
      busy := 0
      detail := (match (s.line l).lastFault with | none => 0 | some .notQuiet => 1 | some .stuck => 2 | some .conflict => 3)
      result := (match (s.line l).run with | .stopped => 0 | .starting => 1 | .running => 2 | .stopping => 3 | .faulted => 4)
      buffer := 0 }

/-! ## Laws that every step keeps -/

/-- Every law of a state holds right after reset. Model's choices it rests on: notes/assumptions/5, 23. -/
def Obligations.LawsHoldAtReset : Prop :=
  State.reset.MemOk ∧ State.reset.KeysOk ∧ State.reset.QueuesOk ∧ State.reset.RingsOk ∧ State.reset.LedgerOk

/-- Every step keeps the image of what the device has written to host memory in its canonical form, and station addresses 1 to 126 with at most
one entry in use per (line, address) (R18). -/
def Obligations.StepKeepsMemoryFormAndStationKeys : Prop :=
  (∀ s t : State, s.MemOk → step s = .next t → t.MemOk)
  ∧ (∀ s t : State, s.KeysOk → step s = .next t → t.KeysOk)

/-- Every step keeps each line's notice queue the entries of that line whose notice is pending, each at most once (R31, R32, R34, R37). -/
def Obligations.StepKeepsNoticeQueues : Prop := ∀ s t : State, s.QueuesOk → step s = .next t → t.QueuesOk

/-- Every step keeps on every line: a phase only in RUNNING and STOPPING, a fault cause only in FAULTED, the driver on only in LEAD and SENDING,
SEL asserted only on a clocked line in an exchange, at most one ACTIVE slot, which is the requester of the line's attempt, and fewer than three
consecutive conflicts in service; and, where every completion writer holds its reservation (the capacity law, kept by every step with the
ledger), each Scanner's reservation, polled station and delivery present exactly in the states that have them (R6, R39, R63, R69, R73, R77, R106,
R138). -/
def Obligations.StepKeepsLineAndScannerLaws : Prop :=
  (∀ s t : State, s.LinesOk → step s = .next t → t.LinesOk)
  ∧ (∀ s t : State, s.ScannersOk → s.CapacityOk → step s = .next t → t.ScannersOk)

/-- Every step keeps the part at rest in OFF, LOADING and FAULTED: every line STOPPED with its driver off and its slots FREE, no write in
progress, and in OFF and LOADING no context at all; that a Scanner stands in IDLE in FAULTED is the model's choice (R62, R72, R171). Model's
choices it rests on: notes/assumptions/23. -/
def Obligations.StepKeepsThePartAtRest : Prop := ∀ s t : State, s.RestOk → step s = .next t → t.RestOk

/-- Every step keeps ring indices below their sizes, and a completion ring's tail at its head plus written-unreleased modulo the size (R113,
R123, R136). -/
def Obligations.StepKeepsRingIndices : Prop := ∀ s t : State, s.RingsOk → step s = .next t → t.RingsOk

/-- Every step keeps each ring's in-flight count the number of its bound line's non-FREE slots that hold its records, at most 4, and ring 0 bound
to no line; the part at rest, kept with it, has the model's choice of the Scanner IDLE in FAULTED (R39, R129, R133). Model's choices it rests on:
notes/assumptions/23. -/
def Obligations.StepKeepsInFlightCounts : Prop :=
  ∀ s t : State, s.RestOk ∧ s.InFlightOk → step s = .next t → t.RestOk ∧ t.InFlightOk

/-- Every step keeps the ledger of reservations: in every completion ring written-unreleased plus reserved is at most the size, the reservations
are exactly those its claimants hold, and every writer holds one; with it the laws of lines, attempts, Scanners, in-flight counts and the part at
rest, whose Scanner IDLE in FAULTED is the model's choice (R39, R133, R138, R140). Model's choices it rests on: notes/assumptions/23. -/
def Obligations.StepKeepsTheReservationLedger : Prop := ∀ s t : State, s.LedgerOk → step s = .next t → t.LedgerOk
end

