-- ==== Sys2Proof/Laws/Memory.lean ====
section
/-! SUPPORT. The image of what the device has written to host memory: every operation keeps its canonical form, a read after a write gives
the byte written, and a write leaves every other address as it was. -/

namespace Sys2Proof.Machine

/-! ## One byte -/

theorem memWfFrom_mono {m : List Host.Cell} {lo hi : Nat} (h : memWfFrom hi m = true) (hle : lo ≤ hi) :
    memWfFrom lo m = true := by
  cases m with
  | nil => rfl
  | cons c rest =>
    simp only [memWfFrom, Bool.and_eq_true, decide_eq_true_eq] at h ⊢
    exact ⟨by omega, h.2⟩

theorem memPut_wfFrom {m : List Host.Cell} {lo a : Nat} {b : Byte} (h : memWfFrom lo m = true) (ha : lo ≤ a) :
    memWfFrom lo (memPut m a b) = true := by
  induction m generalizing lo with
  | nil => simp [memPut, memWfFrom, ha]
  | cons c rest ih =>
    obtain ⟨k, v⟩ := c
    simp only [memWfFrom, Bool.and_eq_true, decide_eq_true_eq] at h
    unfold memPut
    split
    · rename_i hlt
      simp only [memWfFrom, Bool.and_eq_true, decide_eq_true_eq]
      exact ⟨ha, by omega, h.2⟩
    · split
      · rename_i heq
        subst heq
        simp only [memWfFrom, Bool.and_eq_true, decide_eq_true_eq]
        exact ⟨ha, h.2⟩
      · simp only [memWfFrom, Bool.and_eq_true, decide_eq_true_eq]
        exact ⟨h.1, ih h.2 (by omega)⟩

/-- Writing a byte keeps the canonical form. -/
theorem memPut_wf {m : List Host.Cell} (h : memWf m = true) (a : Nat) (b : Byte) : memWf (memPut m a b) = true :=
  memPut_wfFrom h (Nat.zero_le a)

/-- A byte reads as it was last written. -/
@[simp] theorem memRead_memPut_same (m : List Host.Cell) (a : Nat) (b : Byte) : memRead (memPut m a b) a = some b := by
  induction m with
  | nil => simp [memPut, memRead]
  | cons c rest ih =>
    unfold memPut
    split
    · simp [memRead]
    · split
      · simp [memRead]
      · rename_i h
        simp [memRead, h, ih]

theorem memRead_below {m : List Host.Cell} {lo a : Nat} (h : memWfFrom lo m = true) (ha : a < lo) : memRead m a = none := by
  induction m generalizing lo with
  | nil => rfl
  | cons c rest ih =>
    simp only [memWfFrom, Bool.and_eq_true, decide_eq_true_eq] at h
    simp only [memRead]
    rw [if_neg (by omega)]
    exact ih h.2 (by omega)

/-- Writing a byte leaves every other address as it was. -/
@[simp] theorem memRead_memPut_ne (m : List Host.Cell) {a a' : Nat} (b : Byte) (h : a' ≠ a) :
    memRead (memPut m a b) a' = memRead m a' := by
  induction m with
  | nil => simp [memPut, memRead, h]
  | cons c rest ih =>
    unfold memPut
    split
    · simp [memRead, h]
    · split
      · rename_i heq
        subst heq
        simp [memRead, h]
      · simp [memRead, ih]

/-! ## Runs of bytes -/

/-- Writing bytes from an address upward keeps the canonical form. -/
theorem memWrite_wf {m : List Host.Cell} (h : memWf m = true) (a : Nat) (bs : List Byte) : memWf (memWrite m a bs) = true := by
  induction bs generalizing m a with
  | nil => exact h
  | cons b rest ih => exact ih (memPut_wf h a b) (a + 1)

/-- Writing those bytes that landed keeps the canonical form. -/
theorem memWriteMasked_wf {m : List Host.Cell} (h : memWf m = true) (a : Nat) (bs : List Byte) (landed : List Bool) :
    memWf (memWriteMasked m a bs landed) = true := by
  induction bs generalizing m a landed with
  | nil => exact h
  | cons b rest ih =>
    refine ih ?_ (a + 1) landed.tail
    split
    · exact memPut_wf h a b
    · exact h

/-- An address outside the bytes written reads as before. -/
theorem memRead_memWrite_outside (m : List Host.Cell) (a : Nat) (bs : List Byte) (a' : Nat)
    (h : ¬ (a ≤ a' ∧ a' < a + bs.length)) : memRead (memWrite m a bs) a' = memRead m a' := by
  induction bs generalizing m a with
  | nil => rfl
  | cons b rest ih =>
    simp only [List.length_cons] at h
    rw [memWrite, ih (memPut m a b) (a + 1) (by omega), memRead_memPut_ne m b (by omega)]

/-- Byte `k` written from `a` upward is read at `a + k`. -/
theorem memRead_memWrite_inside (m : List Host.Cell) (a : Nat) (bs : List Byte) (k : Nat) (h : k < bs.length) :
    memRead (memWrite m a bs) (a + k) = some bs[k] := by
  induction bs generalizing m a k with
  | nil => simp at h
  | cons b rest ih =>
    cases k with
    | zero =>
      rw [memWrite, memRead_memWrite_outside _ _ _ _ (by omega)]
      simp
    | succ k =>
      rw [memWrite, show a + (k + 1) = a + 1 + k by omega]
      simpa using ih (memPut m a b) (a + 1) k (by simpa using h)

/-- An address outside the bytes of a write that ended with an error reads as before. -/
theorem memRead_memWriteMasked_outside (m : List Host.Cell) (a : Nat) (bs : List Byte) (landed : List Bool) (a' : Nat)
    (h : ¬ (a ≤ a' ∧ a' < a + bs.length)) : memRead (memWriteMasked m a bs landed) a' = memRead m a' := by
  induction bs generalizing m a landed with
  | nil => rfl
  | cons b rest ih =>
    simp only [List.length_cons] at h
    rw [memWriteMasked, ih _ (a + 1) landed.tail (by omega)]
    split
    · exact memRead_memPut_ne m b (by omega)
    · rfl

/-- Byte `k` of a write that ended with an error reads new where it landed and old where it did not (R97). -/
theorem memRead_memWriteMasked_inside (m : List Host.Cell) (a : Nat) (bs : List Byte) (landed : List Bool) (k : Nat)
    (h : k < bs.length) :
    memRead (memWriteMasked m a bs landed) (a + k) = if landed.getD k false = true then some bs[k] else memRead m (a + k) := by
  induction bs generalizing m a landed k with
  | nil => simp at h
  | cons b rest ih =>
    cases k with
    | zero =>
      rw [memWriteMasked, memRead_memWriteMasked_outside _ _ _ _ _ (by omega)]
      cases landed with
      | nil => simp
      | cons x xs => cases x <;> simp
    | succ k =>
      have hk : k < rest.length := by simpa using h
      rw [memWriteMasked, show a + (k + 1) = a + 1 + k by omega, ih _ (a + 1) landed.tail k hk]
      have hg : landed.tail.getD k false = landed.getD (k + 1) false := by cases landed <;> simp
      rw [hg]
      split
      · simp
      · split
        · exact memRead_memPut_ne m b (by omega)
        · rfl

/-! ## The operations of State -/

/-- A host write keeps the canonical form. -/
theorem State.hostWrite_memWf {s : State} (h : memWf s.hostMem = true) (a : Nat) (bs : List Byte) :
    memWf (s.hostWrite a bs).hostMem = true :=
  memWrite_wf h a bs

/-- A host write that ended with an error keeps the canonical form. -/
theorem State.hostWriteMasked_memWf {s : State} (h : memWf s.hostMem = true) (a : Nat) (bs : List Byte) (landed : List Bool) :
    memWf (s.hostWriteMasked a bs landed).hostMem = true :=
  memWriteMasked_wf h a bs landed

/-- A host write that a device fault or a reset cut off keeps the canonical form. -/
theorem State.hostWriteCut_memWf {s : State} (h : memWf s.hostMem = true) (a : Nat) (bs : List Byte) :
    memWf (s.hostWriteCut a bs).hostMem = true :=
  memWriteMasked_wf h a bs _

end Sys2Proof.Machine
end

