-- ==== Sys2Proof/Laws/React.lean ====
section
/-! SUPPORT. The units' own acts, packaged once: what every act keeps, the end of a step keeps, and a step that answers a next state is the
one command at the front of the queue or the idle tick. -/

namespace Sys2Proof.Machine

/-- Every act is looked for, among the consequences or among the claims. -/
theorem Act.mem_acts (a : Act) : a ∈ consequences ++ claims := by
  cases a <;> simp [consequences, claims]

/-- What the units make of a state is what they leave of it. -/
theorem AfterUnits.eq_react {u t : State} (h : AfterUnits u t) : t = u.react := h.1

/-- An act that is taken next was enabled. -/
theorem State.nextAct_enabled {s : State} {a : Act} {free : Bool} (h : s.nextAct = some (a, free)) : s.enabled a = true := by
  unfold State.nextAct at h
  split at h
  · rename_i b hb
    cases h
    exact List.find?_some hb
  · split at h
    · cases h
    · rename_i b rest hl
      have hin : ∀ x ∈ b :: rest, s.enabled x = true := fun x hx =>
        (List.mem_filter.mp (hl ▸ hx)).2
      split at h
      · cases h
        exact hin a (by simp)
      · rename_i c more hm
        have ha : (b :: c :: more).getD (Config.raceWinner s.choices % (more.length + 2)) b = a := by
          injection h with h; injection h
        have hall : ∀ x ∈ b :: c :: more, s.enabled x = true := fun x hx => by
          rcases List.mem_cons.mp hx with h1 | h1
          · exact hin x (by simp [h1])
          · rw [← hm] at h1
            exact hin x (List.mem_cons_of_mem _ (List.mem_of_mem_filter h1))
        have hlt : Config.raceWinner s.choices % (more.length + 2) < (b :: c :: more).length :=
          Nat.mod_lt _ (Nat.succ_pos _)
        rw [← ha, List.getD_eq_getElem _ _ hlt]
        exact hall _ (List.getElem_mem hlt)

/-- What every enabled act keeps, and the counting of a free choice keeps, any number of acts keeps. -/
theorem State.reactFor_induction {P : State → Prop} (hact : ∀ s a, s.enabled a = true → P s → P (s.perform a))
    (hchoice : ∀ s n, P s → P { s with choices := n }) (n : Nat) {s : State} (h : P s) : P (State.reactFor n s) := by
  induction n generalizing s with
  | zero => exact h
  | succ n ih =>
    unfold State.reactFor
    split
    · exact h
    · rename_i a free hn
      refine ih ?_
      unfold State.choiceTaken
      split
      · exact hchoice _ _ (hact s a (State.nextAct_enabled hn) h)
      · exact hact s a (State.nextAct_enabled hn) h

/-- What every enabled act keeps, the end of a step keeps. -/
theorem State.react_induction {P : State → Prop} (hact : ∀ s a, s.enabled a = true → P s → P (s.perform a))
    (hchoice : ∀ s n, P s → P { s with choices := n }) {s : State} (h : P s) : P s.react :=
  State.reactFor_induction hact hchoice reactLimit h

/-- What relates a state to each of its acts' results, and is kept along them, relates it to the end of the step. -/
theorem State.react_relates {R : State → State → Prop} (hrefl : ∀ s, R s s) (htrans : ∀ s t u, R s t → R t u → R s u)
    (hact : ∀ s a, s.enabled a = true → R s (s.perform a)) (hchoice : ∀ s n, R s { s with choices := n }) (s : State) :
    R s s.react :=
  State.react_induction (P := R s) (fun t a ha h => htrans _ _ _ h (hact t a ha))
    (fun t n h => htrans _ _ _ h (hchoice t n)) (hrefl s)

/-- A state with no act left is where the units stop. -/
theorem State.react_of_none {s : State} (h : s.nextAct = none) : s.react = s := by
  unfold State.react reactLimit State.reactFor
  rw [h]

end Sys2Proof.Machine
end

