-- ==== Sys2Proof/Laws/State.lean ====
section
/-! SUPPORT. The small lemmas of State: one per field per update of the named operations, the tables of lines, rings, completion rings,
stations and slots after a replacement, and what each shared operation changes. -/

namespace Sys2Proof

/-! ## Tables -/

@[simp] theorem vget_vput_same {α : Type} {n : Nat} (v : Vector α n) (i : Fin n) (x : α) : vget (vput v i x) i = x := by
  simp [vget, vput]

@[simp] theorem vget_vput_ne {α : Type} {n : Nat} (v : Vector α n) {i j : Fin n} (x : α) (h : j ≠ i) :
    vget (vput v i x) j = vget v j := by
  simp only [vget, vput]
  exact Vector.getElem_set_ne _ _ fun e => h (Fin.ext e.symm)

theorem vget_vput {α : Type} {n : Nat} (v : Vector α n) (i j : Fin n) (x : α) :
    vget (vput v i x) j = if j = i then x else vget v j := by
  by_cases h : j = i
  · subst h; simp
  · simp [h]

@[simp] theorem vget_replicate {α : Type} {n : Nat} (x : α) (i : Fin n) : vget (Vector.replicate n x) i = x := by
  simp [vget]

@[simp] theorem vget_vmap {α β : Type} {n : Nat} (f : α → β) (v : Vector α n) (i : Fin n) : vget (vmap f v) i = f (vget v i) := by
  simp [vget, vmap]

theorem vget_ext {α : Type} {n : Nat} {v w : Vector α n} (h : ∀ i, vget v i = vget w i) : v = w :=
  Vector.ext fun i hi => h ⟨i, hi⟩

namespace Machine

/-! ## One lemma per field per update -/

@[simp] theorem State.setCause_device (s : State) (k : Nat) : (s.setCause k).device = s.device := rfl
@[simp] theorem State.setCause_enable (s : State) (k : Nat) : (s.setCause k).enable = s.enable := rfl
@[simp] theorem State.setCause_intEnable (s : State) (k : Nat) : (s.setCause k).intEnable = s.intEnable := rfl
@[simp] theorem State.setCause_bootAddr (s : State) (k : Nat) : (s.setCause k).bootAddr = s.bootAddr := rfl
@[simp] theorem State.setCause_resetCause (s : State) (k : Nat) : (s.setCause k).resetCause = s.resetCause := rfl
@[simp] theorem State.setCause_faultCode (s : State) (k : Nat) : (s.setCause k).faultCode = s.faultCode := rfl
@[simp] theorem State.setCause_postError (s : State) (k : Nat) : (s.setCause k).postError = s.postError := rfl
@[simp] theorem State.setCause_deviceTime (s : State) (k : Nat) : (s.setCause k).deviceTime = s.deviceTime := rfl
@[simp] theorem State.setCause_loadAddr (s : State) (k : Nat) : (s.setCause k).loadAddr = s.loadAddr := rfl
@[simp] theorem State.setCause_rings (s : State) (k : Nat) : (s.setCause k).rings = s.rings := rfl
@[simp] theorem State.setCause_pool (s : State) (k : Nat) : (s.setCause k).pool = s.pool := rfl
@[simp] theorem State.setCause_crings (s : State) (k : Nat) : (s.setCause k).crings = s.crings := rfl
@[simp] theorem State.setCause_admin (s : State) (k : Nat) : (s.setCause k).admin = s.admin := rfl
@[simp] theorem State.setCause_lines (s : State) (k : Nat) : (s.setCause k).lines = s.lines := rfl
@[simp] theorem State.setCause_stations (s : State) (k : Nat) : (s.setCause k).stations = s.stations := rfl
@[simp] theorem State.setCause_hostMem (s : State) (k : Nat) : (s.setCause k).hostMem = s.hostMem := rfl
@[simp] theorem State.setCause_choices (s : State) (k : Nat) : (s.setCause k).choices = s.choices := rfl
@[simp] theorem State.setCause_pending (s : State) (k : Nat) : (s.setCause k).pending = s.pending := rfl

@[simp] theorem State.clearCause_device (s : State) (k : Nat) : (s.clearCause k).device = s.device := rfl
@[simp] theorem State.clearCause_enable (s : State) (k : Nat) : (s.clearCause k).enable = s.enable := rfl
@[simp] theorem State.clearCause_intEnable (s : State) (k : Nat) : (s.clearCause k).intEnable = s.intEnable := rfl
@[simp] theorem State.clearCause_bootAddr (s : State) (k : Nat) : (s.clearCause k).bootAddr = s.bootAddr := rfl
@[simp] theorem State.clearCause_resetCause (s : State) (k : Nat) : (s.clearCause k).resetCause = s.resetCause := rfl
@[simp] theorem State.clearCause_faultCode (s : State) (k : Nat) : (s.clearCause k).faultCode = s.faultCode := rfl
@[simp] theorem State.clearCause_postError (s : State) (k : Nat) : (s.clearCause k).postError = s.postError := rfl
@[simp] theorem State.clearCause_deviceTime (s : State) (k : Nat) : (s.clearCause k).deviceTime = s.deviceTime := rfl
@[simp] theorem State.clearCause_loadAddr (s : State) (k : Nat) : (s.clearCause k).loadAddr = s.loadAddr := rfl
@[simp] theorem State.clearCause_rings (s : State) (k : Nat) : (s.clearCause k).rings = s.rings := rfl
@[simp] theorem State.clearCause_pool (s : State) (k : Nat) : (s.clearCause k).pool = s.pool := rfl
@[simp] theorem State.clearCause_crings (s : State) (k : Nat) : (s.clearCause k).crings = s.crings := rfl
@[simp] theorem State.clearCause_admin (s : State) (k : Nat) : (s.clearCause k).admin = s.admin := rfl
@[simp] theorem State.clearCause_lines (s : State) (k : Nat) : (s.clearCause k).lines = s.lines := rfl
@[simp] theorem State.clearCause_stations (s : State) (k : Nat) : (s.clearCause k).stations = s.stations := rfl
@[simp] theorem State.clearCause_hostMem (s : State) (k : Nat) : (s.clearCause k).hostMem = s.hostMem := rfl
@[simp] theorem State.clearCause_choices (s : State) (k : Nat) : (s.clearCause k).choices = s.choices := rfl
@[simp] theorem State.clearCause_pending (s : State) (k : Nat) : (s.clearCause k).pending = s.pending := rfl

@[simp] theorem State.setLine_device (s : State) (l : LineId) (x : Line) : (s.setLine l x).device = s.device := rfl
@[simp] theorem State.setLine_enable (s : State) (l : LineId) (x : Line) : (s.setLine l x).enable = s.enable := rfl
@[simp] theorem State.setLine_intEnable (s : State) (l : LineId) (x : Line) : (s.setLine l x).intEnable = s.intEnable := rfl
@[simp] theorem State.setLine_bootAddr (s : State) (l : LineId) (x : Line) : (s.setLine l x).bootAddr = s.bootAddr := rfl
@[simp] theorem State.setLine_resetCause (s : State) (l : LineId) (x : Line) : (s.setLine l x).resetCause = s.resetCause := rfl
@[simp] theorem State.setLine_faultCode (s : State) (l : LineId) (x : Line) : (s.setLine l x).faultCode = s.faultCode := rfl
@[simp] theorem State.setLine_postError (s : State) (l : LineId) (x : Line) : (s.setLine l x).postError = s.postError := rfl
@[simp] theorem State.setLine_intcause (s : State) (l : LineId) (x : Line) : (s.setLine l x).intcause = s.intcause := rfl
@[simp] theorem State.setLine_deviceTime (s : State) (l : LineId) (x : Line) : (s.setLine l x).deviceTime = s.deviceTime := rfl
@[simp] theorem State.setLine_loadAddr (s : State) (l : LineId) (x : Line) : (s.setLine l x).loadAddr = s.loadAddr := rfl
@[simp] theorem State.setLine_rings (s : State) (l : LineId) (x : Line) : (s.setLine l x).rings = s.rings := rfl
@[simp] theorem State.setLine_pool (s : State) (l : LineId) (x : Line) : (s.setLine l x).pool = s.pool := rfl
@[simp] theorem State.setLine_crings (s : State) (l : LineId) (x : Line) : (s.setLine l x).crings = s.crings := rfl
@[simp] theorem State.setLine_admin (s : State) (l : LineId) (x : Line) : (s.setLine l x).admin = s.admin := rfl
@[simp] theorem State.setLine_stations (s : State) (l : LineId) (x : Line) : (s.setLine l x).stations = s.stations := rfl
@[simp] theorem State.setLine_hostMem (s : State) (l : LineId) (x : Line) : (s.setLine l x).hostMem = s.hostMem := rfl
@[simp] theorem State.setLine_choices (s : State) (l : LineId) (x : Line) : (s.setLine l x).choices = s.choices := rfl
@[simp] theorem State.setLine_pending (s : State) (l : LineId) (x : Line) : (s.setLine l x).pending = s.pending := rfl

@[simp] theorem State.modLine_device (s : State) (l : LineId) (f : Line → Line) : (s.modLine l f).device = s.device := rfl
@[simp] theorem State.modLine_enable (s : State) (l : LineId) (f : Line → Line) : (s.modLine l f).enable = s.enable := rfl
@[simp] theorem State.modLine_intEnable (s : State) (l : LineId) (f : Line → Line) : (s.modLine l f).intEnable = s.intEnable := rfl
@[simp] theorem State.modLine_bootAddr (s : State) (l : LineId) (f : Line → Line) : (s.modLine l f).bootAddr = s.bootAddr := rfl
@[simp] theorem State.modLine_resetCause (s : State) (l : LineId) (f : Line → Line) : (s.modLine l f).resetCause = s.resetCause := rfl
@[simp] theorem State.modLine_faultCode (s : State) (l : LineId) (f : Line → Line) : (s.modLine l f).faultCode = s.faultCode := rfl
@[simp] theorem State.modLine_postError (s : State) (l : LineId) (f : Line → Line) : (s.modLine l f).postError = s.postError := rfl
@[simp] theorem State.modLine_intcause (s : State) (l : LineId) (f : Line → Line) : (s.modLine l f).intcause = s.intcause := rfl
@[simp] theorem State.modLine_deviceTime (s : State) (l : LineId) (f : Line → Line) : (s.modLine l f).deviceTime = s.deviceTime := rfl
@[simp] theorem State.modLine_loadAddr (s : State) (l : LineId) (f : Line → Line) : (s.modLine l f).loadAddr = s.loadAddr := rfl
@[simp] theorem State.modLine_rings (s : State) (l : LineId) (f : Line → Line) : (s.modLine l f).rings = s.rings := rfl
@[simp] theorem State.modLine_pool (s : State) (l : LineId) (f : Line → Line) : (s.modLine l f).pool = s.pool := rfl
@[simp] theorem State.modLine_crings (s : State) (l : LineId) (f : Line → Line) : (s.modLine l f).crings = s.crings := rfl
@[simp] theorem State.modLine_admin (s : State) (l : LineId) (f : Line → Line) : (s.modLine l f).admin = s.admin := rfl
@[simp] theorem State.modLine_stations (s : State) (l : LineId) (f : Line → Line) : (s.modLine l f).stations = s.stations := rfl
@[simp] theorem State.modLine_hostMem (s : State) (l : LineId) (f : Line → Line) : (s.modLine l f).hostMem = s.hostMem := rfl
@[simp] theorem State.modLine_choices (s : State) (l : LineId) (f : Line → Line) : (s.modLine l f).choices = s.choices := rfl
@[simp] theorem State.modLine_pending (s : State) (l : LineId) (f : Line → Line) : (s.modLine l f).pending = s.pending := rfl

@[simp] theorem State.modSlot_device (s : State) (l : LineId) (i : SlotId) (f : Slot → Slot) : (s.modSlot l i f).device = s.device := rfl
@[simp] theorem State.modSlot_enable (s : State) (l : LineId) (i : SlotId) (f : Slot → Slot) : (s.modSlot l i f).enable = s.enable := rfl
@[simp] theorem State.modSlot_intEnable (s : State) (l : LineId) (i : SlotId) (f : Slot → Slot) : (s.modSlot l i f).intEnable = s.intEnable := rfl
@[simp] theorem State.modSlot_bootAddr (s : State) (l : LineId) (i : SlotId) (f : Slot → Slot) : (s.modSlot l i f).bootAddr = s.bootAddr := rfl
@[simp] theorem State.modSlot_resetCause (s : State) (l : LineId) (i : SlotId) (f : Slot → Slot) : (s.modSlot l i f).resetCause = s.resetCause := rfl
@[simp] theorem State.modSlot_faultCode (s : State) (l : LineId) (i : SlotId) (f : Slot → Slot) : (s.modSlot l i f).faultCode = s.faultCode := rfl
@[simp] theorem State.modSlot_postError (s : State) (l : LineId) (i : SlotId) (f : Slot → Slot) : (s.modSlot l i f).postError = s.postError := rfl
@[simp] theorem State.modSlot_intcause (s : State) (l : LineId) (i : SlotId) (f : Slot → Slot) : (s.modSlot l i f).intcause = s.intcause := rfl
@[simp] theorem State.modSlot_deviceTime (s : State) (l : LineId) (i : SlotId) (f : Slot → Slot) : (s.modSlot l i f).deviceTime = s.deviceTime := rfl
@[simp] theorem State.modSlot_loadAddr (s : State) (l : LineId) (i : SlotId) (f : Slot → Slot) : (s.modSlot l i f).loadAddr = s.loadAddr := rfl
@[simp] theorem State.modSlot_rings (s : State) (l : LineId) (i : SlotId) (f : Slot → Slot) : (s.modSlot l i f).rings = s.rings := rfl
@[simp] theorem State.modSlot_pool (s : State) (l : LineId) (i : SlotId) (f : Slot → Slot) : (s.modSlot l i f).pool = s.pool := rfl
@[simp] theorem State.modSlot_crings (s : State) (l : LineId) (i : SlotId) (f : Slot → Slot) : (s.modSlot l i f).crings = s.crings := rfl
@[simp] theorem State.modSlot_admin (s : State) (l : LineId) (i : SlotId) (f : Slot → Slot) : (s.modSlot l i f).admin = s.admin := rfl
@[simp] theorem State.modSlot_stations (s : State) (l : LineId) (i : SlotId) (f : Slot → Slot) : (s.modSlot l i f).stations = s.stations := rfl
@[simp] theorem State.modSlot_hostMem (s : State) (l : LineId) (i : SlotId) (f : Slot → Slot) : (s.modSlot l i f).hostMem = s.hostMem := rfl
@[simp] theorem State.modSlot_choices (s : State) (l : LineId) (i : SlotId) (f : Slot → Slot) : (s.modSlot l i f).choices = s.choices := rfl
@[simp] theorem State.modSlot_pending (s : State) (l : LineId) (i : SlotId) (f : Slot → Slot) : (s.modSlot l i f).pending = s.pending := rfl

@[simp] theorem State.setRing_device (s : State) (r : RingId) (x : Option SubRing) : (s.setRing r x).device = s.device := rfl
@[simp] theorem State.setRing_enable (s : State) (r : RingId) (x : Option SubRing) : (s.setRing r x).enable = s.enable := rfl
@[simp] theorem State.setRing_intEnable (s : State) (r : RingId) (x : Option SubRing) : (s.setRing r x).intEnable = s.intEnable := rfl
@[simp] theorem State.setRing_bootAddr (s : State) (r : RingId) (x : Option SubRing) : (s.setRing r x).bootAddr = s.bootAddr := rfl
@[simp] theorem State.setRing_resetCause (s : State) (r : RingId) (x : Option SubRing) : (s.setRing r x).resetCause = s.resetCause := rfl
@[simp] theorem State.setRing_faultCode (s : State) (r : RingId) (x : Option SubRing) : (s.setRing r x).faultCode = s.faultCode := rfl
@[simp] theorem State.setRing_postError (s : State) (r : RingId) (x : Option SubRing) : (s.setRing r x).postError = s.postError := rfl
@[simp] theorem State.setRing_intcause (s : State) (r : RingId) (x : Option SubRing) : (s.setRing r x).intcause = s.intcause := rfl
@[simp] theorem State.setRing_deviceTime (s : State) (r : RingId) (x : Option SubRing) : (s.setRing r x).deviceTime = s.deviceTime := rfl
@[simp] theorem State.setRing_loadAddr (s : State) (r : RingId) (x : Option SubRing) : (s.setRing r x).loadAddr = s.loadAddr := rfl
@[simp] theorem State.setRing_pool (s : State) (r : RingId) (x : Option SubRing) : (s.setRing r x).pool = s.pool := rfl
@[simp] theorem State.setRing_crings (s : State) (r : RingId) (x : Option SubRing) : (s.setRing r x).crings = s.crings := rfl
@[simp] theorem State.setRing_admin (s : State) (r : RingId) (x : Option SubRing) : (s.setRing r x).admin = s.admin := rfl
@[simp] theorem State.setRing_lines (s : State) (r : RingId) (x : Option SubRing) : (s.setRing r x).lines = s.lines := rfl
@[simp] theorem State.setRing_stations (s : State) (r : RingId) (x : Option SubRing) : (s.setRing r x).stations = s.stations := rfl
@[simp] theorem State.setRing_hostMem (s : State) (r : RingId) (x : Option SubRing) : (s.setRing r x).hostMem = s.hostMem := rfl
@[simp] theorem State.setRing_choices (s : State) (r : RingId) (x : Option SubRing) : (s.setRing r x).choices = s.choices := rfl
@[simp] theorem State.setRing_pending (s : State) (r : RingId) (x : Option SubRing) : (s.setRing r x).pending = s.pending := rfl

@[simp] theorem State.modRing_device (s : State) (r : RingId) (f : SubRing → SubRing) : (s.modRing r f).device = s.device := rfl
@[simp] theorem State.modRing_enable (s : State) (r : RingId) (f : SubRing → SubRing) : (s.modRing r f).enable = s.enable := rfl
@[simp] theorem State.modRing_intEnable (s : State) (r : RingId) (f : SubRing → SubRing) : (s.modRing r f).intEnable = s.intEnable := rfl
@[simp] theorem State.modRing_bootAddr (s : State) (r : RingId) (f : SubRing → SubRing) : (s.modRing r f).bootAddr = s.bootAddr := rfl
@[simp] theorem State.modRing_resetCause (s : State) (r : RingId) (f : SubRing → SubRing) : (s.modRing r f).resetCause = s.resetCause := rfl
@[simp] theorem State.modRing_faultCode (s : State) (r : RingId) (f : SubRing → SubRing) : (s.modRing r f).faultCode = s.faultCode := rfl
@[simp] theorem State.modRing_postError (s : State) (r : RingId) (f : SubRing → SubRing) : (s.modRing r f).postError = s.postError := rfl
@[simp] theorem State.modRing_intcause (s : State) (r : RingId) (f : SubRing → SubRing) : (s.modRing r f).intcause = s.intcause := rfl
@[simp] theorem State.modRing_deviceTime (s : State) (r : RingId) (f : SubRing → SubRing) : (s.modRing r f).deviceTime = s.deviceTime := rfl
@[simp] theorem State.modRing_loadAddr (s : State) (r : RingId) (f : SubRing → SubRing) : (s.modRing r f).loadAddr = s.loadAddr := rfl
@[simp] theorem State.modRing_pool (s : State) (r : RingId) (f : SubRing → SubRing) : (s.modRing r f).pool = s.pool := rfl
@[simp] theorem State.modRing_crings (s : State) (r : RingId) (f : SubRing → SubRing) : (s.modRing r f).crings = s.crings := rfl
@[simp] theorem State.modRing_admin (s : State) (r : RingId) (f : SubRing → SubRing) : (s.modRing r f).admin = s.admin := rfl
@[simp] theorem State.modRing_lines (s : State) (r : RingId) (f : SubRing → SubRing) : (s.modRing r f).lines = s.lines := rfl
@[simp] theorem State.modRing_stations (s : State) (r : RingId) (f : SubRing → SubRing) : (s.modRing r f).stations = s.stations := rfl
@[simp] theorem State.modRing_hostMem (s : State) (r : RingId) (f : SubRing → SubRing) : (s.modRing r f).hostMem = s.hostMem := rfl
@[simp] theorem State.modRing_choices (s : State) (r : RingId) (f : SubRing → SubRing) : (s.modRing r f).choices = s.choices := rfl
@[simp] theorem State.modRing_pending (s : State) (r : RingId) (f : SubRing → SubRing) : (s.modRing r f).pending = s.pending := rfl

@[simp] theorem State.setCRing_device (s : State) (r : CRingId) (x : Option CRing) : (s.setCRing r x).device = s.device := rfl
@[simp] theorem State.setCRing_enable (s : State) (r : CRingId) (x : Option CRing) : (s.setCRing r x).enable = s.enable := rfl
@[simp] theorem State.setCRing_intEnable (s : State) (r : CRingId) (x : Option CRing) : (s.setCRing r x).intEnable = s.intEnable := rfl
@[simp] theorem State.setCRing_bootAddr (s : State) (r : CRingId) (x : Option CRing) : (s.setCRing r x).bootAddr = s.bootAddr := rfl
@[simp] theorem State.setCRing_resetCause (s : State) (r : CRingId) (x : Option CRing) : (s.setCRing r x).resetCause = s.resetCause := rfl
@[simp] theorem State.setCRing_faultCode (s : State) (r : CRingId) (x : Option CRing) : (s.setCRing r x).faultCode = s.faultCode := rfl
@[simp] theorem State.setCRing_postError (s : State) (r : CRingId) (x : Option CRing) : (s.setCRing r x).postError = s.postError := rfl
@[simp] theorem State.setCRing_intcause (s : State) (r : CRingId) (x : Option CRing) : (s.setCRing r x).intcause = s.intcause := rfl
@[simp] theorem State.setCRing_deviceTime (s : State) (r : CRingId) (x : Option CRing) : (s.setCRing r x).deviceTime = s.deviceTime := rfl
@[simp] theorem State.setCRing_loadAddr (s : State) (r : CRingId) (x : Option CRing) : (s.setCRing r x).loadAddr = s.loadAddr := rfl
@[simp] theorem State.setCRing_rings (s : State) (r : CRingId) (x : Option CRing) : (s.setCRing r x).rings = s.rings := rfl
@[simp] theorem State.setCRing_pool (s : State) (r : CRingId) (x : Option CRing) : (s.setCRing r x).pool = s.pool := rfl
@[simp] theorem State.setCRing_admin (s : State) (r : CRingId) (x : Option CRing) : (s.setCRing r x).admin = s.admin := rfl
@[simp] theorem State.setCRing_lines (s : State) (r : CRingId) (x : Option CRing) : (s.setCRing r x).lines = s.lines := rfl
@[simp] theorem State.setCRing_stations (s : State) (r : CRingId) (x : Option CRing) : (s.setCRing r x).stations = s.stations := rfl
@[simp] theorem State.setCRing_hostMem (s : State) (r : CRingId) (x : Option CRing) : (s.setCRing r x).hostMem = s.hostMem := rfl
@[simp] theorem State.setCRing_choices (s : State) (r : CRingId) (x : Option CRing) : (s.setCRing r x).choices = s.choices := rfl
@[simp] theorem State.setCRing_pending (s : State) (r : CRingId) (x : Option CRing) : (s.setCRing r x).pending = s.pending := rfl

@[simp] theorem State.modCRing_device (s : State) (r : CRingId) (f : CRing → CRing) : (s.modCRing r f).device = s.device := rfl
@[simp] theorem State.modCRing_enable (s : State) (r : CRingId) (f : CRing → CRing) : (s.modCRing r f).enable = s.enable := rfl
@[simp] theorem State.modCRing_intEnable (s : State) (r : CRingId) (f : CRing → CRing) : (s.modCRing r f).intEnable = s.intEnable := rfl
@[simp] theorem State.modCRing_bootAddr (s : State) (r : CRingId) (f : CRing → CRing) : (s.modCRing r f).bootAddr = s.bootAddr := rfl
@[simp] theorem State.modCRing_resetCause (s : State) (r : CRingId) (f : CRing → CRing) : (s.modCRing r f).resetCause = s.resetCause := rfl
@[simp] theorem State.modCRing_faultCode (s : State) (r : CRingId) (f : CRing → CRing) : (s.modCRing r f).faultCode = s.faultCode := rfl
@[simp] theorem State.modCRing_postError (s : State) (r : CRingId) (f : CRing → CRing) : (s.modCRing r f).postError = s.postError := rfl
@[simp] theorem State.modCRing_intcause (s : State) (r : CRingId) (f : CRing → CRing) : (s.modCRing r f).intcause = s.intcause := rfl
@[simp] theorem State.modCRing_deviceTime (s : State) (r : CRingId) (f : CRing → CRing) : (s.modCRing r f).deviceTime = s.deviceTime := rfl
@[simp] theorem State.modCRing_loadAddr (s : State) (r : CRingId) (f : CRing → CRing) : (s.modCRing r f).loadAddr = s.loadAddr := rfl
@[simp] theorem State.modCRing_rings (s : State) (r : CRingId) (f : CRing → CRing) : (s.modCRing r f).rings = s.rings := rfl
@[simp] theorem State.modCRing_pool (s : State) (r : CRingId) (f : CRing → CRing) : (s.modCRing r f).pool = s.pool := rfl
@[simp] theorem State.modCRing_admin (s : State) (r : CRingId) (f : CRing → CRing) : (s.modCRing r f).admin = s.admin := rfl
@[simp] theorem State.modCRing_lines (s : State) (r : CRingId) (f : CRing → CRing) : (s.modCRing r f).lines = s.lines := rfl
@[simp] theorem State.modCRing_stations (s : State) (r : CRingId) (f : CRing → CRing) : (s.modCRing r f).stations = s.stations := rfl
@[simp] theorem State.modCRing_hostMem (s : State) (r : CRingId) (f : CRing → CRing) : (s.modCRing r f).hostMem = s.hostMem := rfl
@[simp] theorem State.modCRing_choices (s : State) (r : CRingId) (f : CRing → CRing) : (s.modCRing r f).choices = s.choices := rfl
@[simp] theorem State.modCRing_pending (s : State) (r : CRingId) (f : CRing → CRing) : (s.modCRing r f).pending = s.pending := rfl

@[simp] theorem State.setStation_device (s : State) (e : EntryId) (x : Option Station) : (s.setStation e x).device = s.device := rfl
@[simp] theorem State.setStation_enable (s : State) (e : EntryId) (x : Option Station) : (s.setStation e x).enable = s.enable := rfl
@[simp] theorem State.setStation_intEnable (s : State) (e : EntryId) (x : Option Station) : (s.setStation e x).intEnable = s.intEnable := rfl
@[simp] theorem State.setStation_bootAddr (s : State) (e : EntryId) (x : Option Station) : (s.setStation e x).bootAddr = s.bootAddr := rfl
@[simp] theorem State.setStation_resetCause (s : State) (e : EntryId) (x : Option Station) : (s.setStation e x).resetCause = s.resetCause := rfl
@[simp] theorem State.setStation_faultCode (s : State) (e : EntryId) (x : Option Station) : (s.setStation e x).faultCode = s.faultCode := rfl
@[simp] theorem State.setStation_postError (s : State) (e : EntryId) (x : Option Station) : (s.setStation e x).postError = s.postError := rfl
@[simp] theorem State.setStation_intcause (s : State) (e : EntryId) (x : Option Station) : (s.setStation e x).intcause = s.intcause := rfl
@[simp] theorem State.setStation_deviceTime (s : State) (e : EntryId) (x : Option Station) : (s.setStation e x).deviceTime = s.deviceTime := rfl
@[simp] theorem State.setStation_loadAddr (s : State) (e : EntryId) (x : Option Station) : (s.setStation e x).loadAddr = s.loadAddr := rfl
@[simp] theorem State.setStation_rings (s : State) (e : EntryId) (x : Option Station) : (s.setStation e x).rings = s.rings := rfl
@[simp] theorem State.setStation_pool (s : State) (e : EntryId) (x : Option Station) : (s.setStation e x).pool = s.pool := rfl
@[simp] theorem State.setStation_crings (s : State) (e : EntryId) (x : Option Station) : (s.setStation e x).crings = s.crings := rfl
@[simp] theorem State.setStation_admin (s : State) (e : EntryId) (x : Option Station) : (s.setStation e x).admin = s.admin := rfl
@[simp] theorem State.setStation_lines (s : State) (e : EntryId) (x : Option Station) : (s.setStation e x).lines = s.lines := rfl
@[simp] theorem State.setStation_hostMem (s : State) (e : EntryId) (x : Option Station) : (s.setStation e x).hostMem = s.hostMem := rfl
@[simp] theorem State.setStation_choices (s : State) (e : EntryId) (x : Option Station) : (s.setStation e x).choices = s.choices := rfl
@[simp] theorem State.setStation_pending (s : State) (e : EntryId) (x : Option Station) : (s.setStation e x).pending = s.pending := rfl

@[simp] theorem State.modStation_device (s : State) (e : EntryId) (f : Station → Station) : (s.modStation e f).device = s.device := rfl
@[simp] theorem State.modStation_enable (s : State) (e : EntryId) (f : Station → Station) : (s.modStation e f).enable = s.enable := rfl
@[simp] theorem State.modStation_intEnable (s : State) (e : EntryId) (f : Station → Station) : (s.modStation e f).intEnable = s.intEnable := rfl
@[simp] theorem State.modStation_bootAddr (s : State) (e : EntryId) (f : Station → Station) : (s.modStation e f).bootAddr = s.bootAddr := rfl
@[simp] theorem State.modStation_resetCause (s : State) (e : EntryId) (f : Station → Station) : (s.modStation e f).resetCause = s.resetCause := rfl
@[simp] theorem State.modStation_faultCode (s : State) (e : EntryId) (f : Station → Station) : (s.modStation e f).faultCode = s.faultCode := rfl
@[simp] theorem State.modStation_postError (s : State) (e : EntryId) (f : Station → Station) : (s.modStation e f).postError = s.postError := rfl
@[simp] theorem State.modStation_intcause (s : State) (e : EntryId) (f : Station → Station) : (s.modStation e f).intcause = s.intcause := rfl
@[simp] theorem State.modStation_deviceTime (s : State) (e : EntryId) (f : Station → Station) : (s.modStation e f).deviceTime = s.deviceTime := rfl
@[simp] theorem State.modStation_loadAddr (s : State) (e : EntryId) (f : Station → Station) : (s.modStation e f).loadAddr = s.loadAddr := rfl
@[simp] theorem State.modStation_rings (s : State) (e : EntryId) (f : Station → Station) : (s.modStation e f).rings = s.rings := rfl
@[simp] theorem State.modStation_pool (s : State) (e : EntryId) (f : Station → Station) : (s.modStation e f).pool = s.pool := rfl
@[simp] theorem State.modStation_crings (s : State) (e : EntryId) (f : Station → Station) : (s.modStation e f).crings = s.crings := rfl
@[simp] theorem State.modStation_admin (s : State) (e : EntryId) (f : Station → Station) : (s.modStation e f).admin = s.admin := rfl
@[simp] theorem State.modStation_lines (s : State) (e : EntryId) (f : Station → Station) : (s.modStation e f).lines = s.lines := rfl
@[simp] theorem State.modStation_hostMem (s : State) (e : EntryId) (f : Station → Station) : (s.modStation e f).hostMem = s.hostMem := rfl
@[simp] theorem State.modStation_choices (s : State) (e : EntryId) (f : Station → Station) : (s.modStation e f).choices = s.choices := rfl
@[simp] theorem State.modStation_pending (s : State) (e : EntryId) (f : Station → Station) : (s.modStation e f).pending = s.pending := rfl

@[simp] theorem State.reachUs_device (s : State) (t : Nat) : (s.reachUs t).device = s.device := rfl
@[simp] theorem State.reachUs_enable (s : State) (t : Nat) : (s.reachUs t).enable = s.enable := rfl
@[simp] theorem State.reachUs_intEnable (s : State) (t : Nat) : (s.reachUs t).intEnable = s.intEnable := rfl
@[simp] theorem State.reachUs_bootAddr (s : State) (t : Nat) : (s.reachUs t).bootAddr = s.bootAddr := rfl
@[simp] theorem State.reachUs_resetCause (s : State) (t : Nat) : (s.reachUs t).resetCause = s.resetCause := rfl
@[simp] theorem State.reachUs_faultCode (s : State) (t : Nat) : (s.reachUs t).faultCode = s.faultCode := rfl
@[simp] theorem State.reachUs_postError (s : State) (t : Nat) : (s.reachUs t).postError = s.postError := rfl
@[simp] theorem State.reachUs_intcause (s : State) (t : Nat) : (s.reachUs t).intcause = s.intcause := rfl
@[simp] theorem State.reachUs_loadAddr (s : State) (t : Nat) : (s.reachUs t).loadAddr = s.loadAddr := rfl
@[simp] theorem State.reachUs_rings (s : State) (t : Nat) : (s.reachUs t).rings = s.rings := rfl
@[simp] theorem State.reachUs_pool (s : State) (t : Nat) : (s.reachUs t).pool = s.pool := rfl
@[simp] theorem State.reachUs_crings (s : State) (t : Nat) : (s.reachUs t).crings = s.crings := rfl
@[simp] theorem State.reachUs_admin (s : State) (t : Nat) : (s.reachUs t).admin = s.admin := rfl
@[simp] theorem State.reachUs_lines (s : State) (t : Nat) : (s.reachUs t).lines = s.lines := rfl
@[simp] theorem State.reachUs_stations (s : State) (t : Nat) : (s.reachUs t).stations = s.stations := rfl
@[simp] theorem State.reachUs_hostMem (s : State) (t : Nat) : (s.reachUs t).hostMem = s.hostMem := rfl
@[simp] theorem State.reachUs_choices (s : State) (t : Nat) : (s.reachUs t).choices = s.choices := rfl
@[simp] theorem State.reachUs_pending (s : State) (t : Nat) : (s.reachUs t).pending = s.pending := rfl

@[simp] theorem State.hostWrite_device (s : State) (a : Nat) (bs : List Byte) : (s.hostWrite a bs).device = s.device := rfl
@[simp] theorem State.hostWrite_enable (s : State) (a : Nat) (bs : List Byte) : (s.hostWrite a bs).enable = s.enable := rfl
@[simp] theorem State.hostWrite_intEnable (s : State) (a : Nat) (bs : List Byte) : (s.hostWrite a bs).intEnable = s.intEnable := rfl
@[simp] theorem State.hostWrite_bootAddr (s : State) (a : Nat) (bs : List Byte) : (s.hostWrite a bs).bootAddr = s.bootAddr := rfl
@[simp] theorem State.hostWrite_resetCause (s : State) (a : Nat) (bs : List Byte) : (s.hostWrite a bs).resetCause = s.resetCause := rfl
@[simp] theorem State.hostWrite_faultCode (s : State) (a : Nat) (bs : List Byte) : (s.hostWrite a bs).faultCode = s.faultCode := rfl
@[simp] theorem State.hostWrite_postError (s : State) (a : Nat) (bs : List Byte) : (s.hostWrite a bs).postError = s.postError := rfl
@[simp] theorem State.hostWrite_intcause (s : State) (a : Nat) (bs : List Byte) : (s.hostWrite a bs).intcause = s.intcause := rfl
@[simp] theorem State.hostWrite_deviceTime (s : State) (a : Nat) (bs : List Byte) : (s.hostWrite a bs).deviceTime = s.deviceTime := rfl
@[simp] theorem State.hostWrite_loadAddr (s : State) (a : Nat) (bs : List Byte) : (s.hostWrite a bs).loadAddr = s.loadAddr := rfl
@[simp] theorem State.hostWrite_rings (s : State) (a : Nat) (bs : List Byte) : (s.hostWrite a bs).rings = s.rings := rfl
@[simp] theorem State.hostWrite_pool (s : State) (a : Nat) (bs : List Byte) : (s.hostWrite a bs).pool = s.pool := rfl
@[simp] theorem State.hostWrite_crings (s : State) (a : Nat) (bs : List Byte) : (s.hostWrite a bs).crings = s.crings := rfl
@[simp] theorem State.hostWrite_admin (s : State) (a : Nat) (bs : List Byte) : (s.hostWrite a bs).admin = s.admin := rfl
@[simp] theorem State.hostWrite_lines (s : State) (a : Nat) (bs : List Byte) : (s.hostWrite a bs).lines = s.lines := rfl
@[simp] theorem State.hostWrite_stations (s : State) (a : Nat) (bs : List Byte) : (s.hostWrite a bs).stations = s.stations := rfl
@[simp] theorem State.hostWrite_choices (s : State) (a : Nat) (bs : List Byte) : (s.hostWrite a bs).choices = s.choices := rfl
@[simp] theorem State.hostWrite_pending (s : State) (a : Nat) (bs : List Byte) : (s.hostWrite a bs).pending = s.pending := rfl

@[simp] theorem State.hostWriteMasked_device (s : State) (a : Nat) (bs : List Byte) (m : List Bool) : (s.hostWriteMasked a bs m).device = s.device := rfl
@[simp] theorem State.hostWriteMasked_enable (s : State) (a : Nat) (bs : List Byte) (m : List Bool) : (s.hostWriteMasked a bs m).enable = s.enable := rfl
@[simp] theorem State.hostWriteMasked_intEnable (s : State) (a : Nat) (bs : List Byte) (m : List Bool) : (s.hostWriteMasked a bs m).intEnable = s.intEnable := rfl
@[simp] theorem State.hostWriteMasked_bootAddr (s : State) (a : Nat) (bs : List Byte) (m : List Bool) : (s.hostWriteMasked a bs m).bootAddr = s.bootAddr := rfl
@[simp] theorem State.hostWriteMasked_resetCause (s : State) (a : Nat) (bs : List Byte) (m : List Bool) : (s.hostWriteMasked a bs m).resetCause = s.resetCause := rfl
@[simp] theorem State.hostWriteMasked_faultCode (s : State) (a : Nat) (bs : List Byte) (m : List Bool) : (s.hostWriteMasked a bs m).faultCode = s.faultCode := rfl
@[simp] theorem State.hostWriteMasked_postError (s : State) (a : Nat) (bs : List Byte) (m : List Bool) : (s.hostWriteMasked a bs m).postError = s.postError := rfl
@[simp] theorem State.hostWriteMasked_intcause (s : State) (a : Nat) (bs : List Byte) (m : List Bool) : (s.hostWriteMasked a bs m).intcause = s.intcause := rfl
@[simp] theorem State.hostWriteMasked_deviceTime (s : State) (a : Nat) (bs : List Byte) (m : List Bool) : (s.hostWriteMasked a bs m).deviceTime = s.deviceTime := rfl
@[simp] theorem State.hostWriteMasked_loadAddr (s : State) (a : Nat) (bs : List Byte) (m : List Bool) : (s.hostWriteMasked a bs m).loadAddr = s.loadAddr := rfl
@[simp] theorem State.hostWriteMasked_rings (s : State) (a : Nat) (bs : List Byte) (m : List Bool) : (s.hostWriteMasked a bs m).rings = s.rings := rfl
@[simp] theorem State.hostWriteMasked_pool (s : State) (a : Nat) (bs : List Byte) (m : List Bool) : (s.hostWriteMasked a bs m).pool = s.pool := rfl
@[simp] theorem State.hostWriteMasked_crings (s : State) (a : Nat) (bs : List Byte) (m : List Bool) : (s.hostWriteMasked a bs m).crings = s.crings := rfl
@[simp] theorem State.hostWriteMasked_admin (s : State) (a : Nat) (bs : List Byte) (m : List Bool) : (s.hostWriteMasked a bs m).admin = s.admin := rfl
@[simp] theorem State.hostWriteMasked_lines (s : State) (a : Nat) (bs : List Byte) (m : List Bool) : (s.hostWriteMasked a bs m).lines = s.lines := rfl
@[simp] theorem State.hostWriteMasked_stations (s : State) (a : Nat) (bs : List Byte) (m : List Bool) : (s.hostWriteMasked a bs m).stations = s.stations := rfl
@[simp] theorem State.hostWriteMasked_choices (s : State) (a : Nat) (bs : List Byte) (m : List Bool) : (s.hostWriteMasked a bs m).choices = s.choices := rfl
@[simp] theorem State.hostWriteMasked_pending (s : State) (a : Nat) (bs : List Byte) (m : List Bool) : (s.hostWriteMasked a bs m).pending = s.pending := rfl

@[simp] theorem State.hostWriteCut_device (s : State) (a : Nat) (bs : List Byte) : (s.hostWriteCut a bs).device = s.device := rfl
@[simp] theorem State.hostWriteCut_enable (s : State) (a : Nat) (bs : List Byte) : (s.hostWriteCut a bs).enable = s.enable := rfl
@[simp] theorem State.hostWriteCut_intEnable (s : State) (a : Nat) (bs : List Byte) : (s.hostWriteCut a bs).intEnable = s.intEnable := rfl
@[simp] theorem State.hostWriteCut_bootAddr (s : State) (a : Nat) (bs : List Byte) : (s.hostWriteCut a bs).bootAddr = s.bootAddr := rfl
@[simp] theorem State.hostWriteCut_resetCause (s : State) (a : Nat) (bs : List Byte) : (s.hostWriteCut a bs).resetCause = s.resetCause := rfl
@[simp] theorem State.hostWriteCut_faultCode (s : State) (a : Nat) (bs : List Byte) : (s.hostWriteCut a bs).faultCode = s.faultCode := rfl
@[simp] theorem State.hostWriteCut_postError (s : State) (a : Nat) (bs : List Byte) : (s.hostWriteCut a bs).postError = s.postError := rfl
@[simp] theorem State.hostWriteCut_intcause (s : State) (a : Nat) (bs : List Byte) : (s.hostWriteCut a bs).intcause = s.intcause := rfl
@[simp] theorem State.hostWriteCut_deviceTime (s : State) (a : Nat) (bs : List Byte) : (s.hostWriteCut a bs).deviceTime = s.deviceTime := rfl
@[simp] theorem State.hostWriteCut_loadAddr (s : State) (a : Nat) (bs : List Byte) : (s.hostWriteCut a bs).loadAddr = s.loadAddr := rfl
@[simp] theorem State.hostWriteCut_rings (s : State) (a : Nat) (bs : List Byte) : (s.hostWriteCut a bs).rings = s.rings := rfl
@[simp] theorem State.hostWriteCut_pool (s : State) (a : Nat) (bs : List Byte) : (s.hostWriteCut a bs).pool = s.pool := rfl
@[simp] theorem State.hostWriteCut_crings (s : State) (a : Nat) (bs : List Byte) : (s.hostWriteCut a bs).crings = s.crings := rfl
@[simp] theorem State.hostWriteCut_admin (s : State) (a : Nat) (bs : List Byte) : (s.hostWriteCut a bs).admin = s.admin := rfl
@[simp] theorem State.hostWriteCut_lines (s : State) (a : Nat) (bs : List Byte) : (s.hostWriteCut a bs).lines = s.lines := rfl
@[simp] theorem State.hostWriteCut_stations (s : State) (a : Nat) (bs : List Byte) : (s.hostWriteCut a bs).stations = s.stations := rfl
@[simp] theorem State.hostWriteCut_pending (s : State) (a : Nat) (bs : List Byte) : (s.hostWriteCut a bs).pending = s.pending := rfl

@[simp] theorem State.reserve_device (s : State) (r : CRingId) : (s.reserve r).device = s.device := rfl
@[simp] theorem State.reserve_enable (s : State) (r : CRingId) : (s.reserve r).enable = s.enable := rfl
@[simp] theorem State.reserve_intEnable (s : State) (r : CRingId) : (s.reserve r).intEnable = s.intEnable := rfl
@[simp] theorem State.reserve_bootAddr (s : State) (r : CRingId) : (s.reserve r).bootAddr = s.bootAddr := rfl
@[simp] theorem State.reserve_resetCause (s : State) (r : CRingId) : (s.reserve r).resetCause = s.resetCause := rfl
@[simp] theorem State.reserve_faultCode (s : State) (r : CRingId) : (s.reserve r).faultCode = s.faultCode := rfl
@[simp] theorem State.reserve_postError (s : State) (r : CRingId) : (s.reserve r).postError = s.postError := rfl
@[simp] theorem State.reserve_intcause (s : State) (r : CRingId) : (s.reserve r).intcause = s.intcause := rfl
@[simp] theorem State.reserve_deviceTime (s : State) (r : CRingId) : (s.reserve r).deviceTime = s.deviceTime := rfl
@[simp] theorem State.reserve_loadAddr (s : State) (r : CRingId) : (s.reserve r).loadAddr = s.loadAddr := rfl
@[simp] theorem State.reserve_rings (s : State) (r : CRingId) : (s.reserve r).rings = s.rings := rfl
@[simp] theorem State.reserve_pool (s : State) (r : CRingId) : (s.reserve r).pool = s.pool := rfl
@[simp] theorem State.reserve_admin (s : State) (r : CRingId) : (s.reserve r).admin = s.admin := rfl
@[simp] theorem State.reserve_lines (s : State) (r : CRingId) : (s.reserve r).lines = s.lines := rfl
@[simp] theorem State.reserve_stations (s : State) (r : CRingId) : (s.reserve r).stations = s.stations := rfl
@[simp] theorem State.reserve_hostMem (s : State) (r : CRingId) : (s.reserve r).hostMem = s.hostMem := rfl
@[simp] theorem State.reserve_choices (s : State) (r : CRingId) : (s.reserve r).choices = s.choices := rfl
@[simp] theorem State.reserve_pending (s : State) (r : CRingId) : (s.reserve r).pending = s.pending := rfl

@[simp] theorem State.gainPlace_device (s : State) (r : CRingId) : (s.gainPlace r).device = s.device := rfl
@[simp] theorem State.gainPlace_enable (s : State) (r : CRingId) : (s.gainPlace r).enable = s.enable := rfl
@[simp] theorem State.gainPlace_intEnable (s : State) (r : CRingId) : (s.gainPlace r).intEnable = s.intEnable := rfl
@[simp] theorem State.gainPlace_bootAddr (s : State) (r : CRingId) : (s.gainPlace r).bootAddr = s.bootAddr := rfl
@[simp] theorem State.gainPlace_resetCause (s : State) (r : CRingId) : (s.gainPlace r).resetCause = s.resetCause := rfl
@[simp] theorem State.gainPlace_faultCode (s : State) (r : CRingId) : (s.gainPlace r).faultCode = s.faultCode := rfl
@[simp] theorem State.gainPlace_postError (s : State) (r : CRingId) : (s.gainPlace r).postError = s.postError := rfl
@[simp] theorem State.gainPlace_intcause (s : State) (r : CRingId) : (s.gainPlace r).intcause = s.intcause := rfl
@[simp] theorem State.gainPlace_deviceTime (s : State) (r : CRingId) : (s.gainPlace r).deviceTime = s.deviceTime := rfl
@[simp] theorem State.gainPlace_loadAddr (s : State) (r : CRingId) : (s.gainPlace r).loadAddr = s.loadAddr := rfl
@[simp] theorem State.gainPlace_rings (s : State) (r : CRingId) : (s.gainPlace r).rings = s.rings := rfl
@[simp] theorem State.gainPlace_pool (s : State) (r : CRingId) : (s.gainPlace r).pool = s.pool := rfl
@[simp] theorem State.gainPlace_crings (s : State) (r : CRingId) : (s.gainPlace r).crings = s.crings := rfl
@[simp] theorem State.gainPlace_admin (s : State) (r : CRingId) : (s.gainPlace r).admin = s.admin := rfl
@[simp] theorem State.gainPlace_stations (s : State) (r : CRingId) : (s.gainPlace r).stations = s.stations := rfl
@[simp] theorem State.gainPlace_hostMem (s : State) (r : CRingId) : (s.gainPlace r).hostMem = s.hostMem := rfl
@[simp] theorem State.gainPlace_choices (s : State) (r : CRingId) : (s.gainPlace r).choices = s.choices := rfl
@[simp] theorem State.gainPlace_pending (s : State) (r : CRingId) : (s.gainPlace r).pending = s.pending := rfl

@[simp] theorem State.returnReservation_device (s : State) (r : CRingId) : (s.returnReservation r).device = s.device := rfl
@[simp] theorem State.returnReservation_enable (s : State) (r : CRingId) : (s.returnReservation r).enable = s.enable := rfl
@[simp] theorem State.returnReservation_intEnable (s : State) (r : CRingId) : (s.returnReservation r).intEnable = s.intEnable := rfl
@[simp] theorem State.returnReservation_bootAddr (s : State) (r : CRingId) : (s.returnReservation r).bootAddr = s.bootAddr := rfl
@[simp] theorem State.returnReservation_resetCause (s : State) (r : CRingId) : (s.returnReservation r).resetCause = s.resetCause := rfl
@[simp] theorem State.returnReservation_faultCode (s : State) (r : CRingId) : (s.returnReservation r).faultCode = s.faultCode := rfl
@[simp] theorem State.returnReservation_postError (s : State) (r : CRingId) : (s.returnReservation r).postError = s.postError := rfl
@[simp] theorem State.returnReservation_intcause (s : State) (r : CRingId) : (s.returnReservation r).intcause = s.intcause := rfl
@[simp] theorem State.returnReservation_deviceTime (s : State) (r : CRingId) : (s.returnReservation r).deviceTime = s.deviceTime := rfl
@[simp] theorem State.returnReservation_loadAddr (s : State) (r : CRingId) : (s.returnReservation r).loadAddr = s.loadAddr := rfl
@[simp] theorem State.returnReservation_rings (s : State) (r : CRingId) : (s.returnReservation r).rings = s.rings := rfl
@[simp] theorem State.returnReservation_pool (s : State) (r : CRingId) : (s.returnReservation r).pool = s.pool := rfl
@[simp] theorem State.returnReservation_admin (s : State) (r : CRingId) : (s.returnReservation r).admin = s.admin := rfl
@[simp] theorem State.returnReservation_stations (s : State) (r : CRingId) : (s.returnReservation r).stations = s.stations := rfl
@[simp] theorem State.returnReservation_hostMem (s : State) (r : CRingId) : (s.returnReservation r).hostMem = s.hostMem := rfl
@[simp] theorem State.returnReservation_choices (s : State) (r : CRingId) : (s.returnReservation r).choices = s.choices := rfl
@[simp] theorem State.returnReservation_pending (s : State) (r : CRingId) : (s.returnReservation r).pending = s.pending := rfl

@[simp] theorem State.signalRing_device (s : State) (r : CRingId) : (s.signalRing r).device = s.device := rfl
@[simp] theorem State.signalRing_enable (s : State) (r : CRingId) : (s.signalRing r).enable = s.enable := rfl
@[simp] theorem State.signalRing_intEnable (s : State) (r : CRingId) : (s.signalRing r).intEnable = s.intEnable := rfl
@[simp] theorem State.signalRing_bootAddr (s : State) (r : CRingId) : (s.signalRing r).bootAddr = s.bootAddr := rfl
@[simp] theorem State.signalRing_resetCause (s : State) (r : CRingId) : (s.signalRing r).resetCause = s.resetCause := rfl
@[simp] theorem State.signalRing_faultCode (s : State) (r : CRingId) : (s.signalRing r).faultCode = s.faultCode := rfl
@[simp] theorem State.signalRing_postError (s : State) (r : CRingId) : (s.signalRing r).postError = s.postError := rfl
@[simp] theorem State.signalRing_deviceTime (s : State) (r : CRingId) : (s.signalRing r).deviceTime = s.deviceTime := rfl
@[simp] theorem State.signalRing_loadAddr (s : State) (r : CRingId) : (s.signalRing r).loadAddr = s.loadAddr := rfl
@[simp] theorem State.signalRing_rings (s : State) (r : CRingId) : (s.signalRing r).rings = s.rings := rfl
@[simp] theorem State.signalRing_pool (s : State) (r : CRingId) : (s.signalRing r).pool = s.pool := rfl
@[simp] theorem State.signalRing_admin (s : State) (r : CRingId) : (s.signalRing r).admin = s.admin := rfl
@[simp] theorem State.signalRing_lines (s : State) (r : CRingId) : (s.signalRing r).lines = s.lines := rfl
@[simp] theorem State.signalRing_stations (s : State) (r : CRingId) : (s.signalRing r).stations = s.stations := rfl
@[simp] theorem State.signalRing_hostMem (s : State) (r : CRingId) : (s.signalRing r).hostMem = s.hostMem := rfl
@[simp] theorem State.signalRing_choices (s : State) (r : CRingId) : (s.signalRing r).choices = s.choices := rfl
@[simp] theorem State.signalRing_pending (s : State) (r : CRingId) : (s.signalRing r).pending = s.pending := rfl

@[simp] theorem State.rejectPost_device (s : State) (e : PostError) : (s.rejectPost e).device = s.device := rfl
@[simp] theorem State.rejectPost_enable (s : State) (e : PostError) : (s.rejectPost e).enable = s.enable := rfl
@[simp] theorem State.rejectPost_intEnable (s : State) (e : PostError) : (s.rejectPost e).intEnable = s.intEnable := rfl
@[simp] theorem State.rejectPost_bootAddr (s : State) (e : PostError) : (s.rejectPost e).bootAddr = s.bootAddr := rfl
@[simp] theorem State.rejectPost_resetCause (s : State) (e : PostError) : (s.rejectPost e).resetCause = s.resetCause := rfl
@[simp] theorem State.rejectPost_faultCode (s : State) (e : PostError) : (s.rejectPost e).faultCode = s.faultCode := rfl
@[simp] theorem State.rejectPost_deviceTime (s : State) (e : PostError) : (s.rejectPost e).deviceTime = s.deviceTime := rfl
@[simp] theorem State.rejectPost_loadAddr (s : State) (e : PostError) : (s.rejectPost e).loadAddr = s.loadAddr := rfl
@[simp] theorem State.rejectPost_rings (s : State) (e : PostError) : (s.rejectPost e).rings = s.rings := rfl
@[simp] theorem State.rejectPost_pool (s : State) (e : PostError) : (s.rejectPost e).pool = s.pool := rfl
@[simp] theorem State.rejectPost_crings (s : State) (e : PostError) : (s.rejectPost e).crings = s.crings := rfl
@[simp] theorem State.rejectPost_admin (s : State) (e : PostError) : (s.rejectPost e).admin = s.admin := rfl
@[simp] theorem State.rejectPost_lines (s : State) (e : PostError) : (s.rejectPost e).lines = s.lines := rfl
@[simp] theorem State.rejectPost_stations (s : State) (e : PostError) : (s.rejectPost e).stations = s.stations := rfl
@[simp] theorem State.rejectPost_hostMem (s : State) (e : PostError) : (s.rejectPost e).hostMem = s.hostMem := rfl
@[simp] theorem State.rejectPost_choices (s : State) (e : PostError) : (s.rejectPost e).choices = s.choices := rfl
@[simp] theorem State.rejectPost_pending (s : State) (e : PostError) : (s.rejectPost e).pending = s.pending := rfl

@[simp] theorem State.requestWrite_device (s : State) (r : CRingId) (w : Writer) : (s.requestWrite r w).device = s.device := rfl
@[simp] theorem State.requestWrite_enable (s : State) (r : CRingId) (w : Writer) : (s.requestWrite r w).enable = s.enable := rfl
@[simp] theorem State.requestWrite_intEnable (s : State) (r : CRingId) (w : Writer) : (s.requestWrite r w).intEnable = s.intEnable := rfl
@[simp] theorem State.requestWrite_bootAddr (s : State) (r : CRingId) (w : Writer) : (s.requestWrite r w).bootAddr = s.bootAddr := rfl
@[simp] theorem State.requestWrite_resetCause (s : State) (r : CRingId) (w : Writer) : (s.requestWrite r w).resetCause = s.resetCause := rfl
@[simp] theorem State.requestWrite_faultCode (s : State) (r : CRingId) (w : Writer) : (s.requestWrite r w).faultCode = s.faultCode := rfl
@[simp] theorem State.requestWrite_postError (s : State) (r : CRingId) (w : Writer) : (s.requestWrite r w).postError = s.postError := rfl
@[simp] theorem State.requestWrite_intcause (s : State) (r : CRingId) (w : Writer) : (s.requestWrite r w).intcause = s.intcause := rfl
@[simp] theorem State.requestWrite_deviceTime (s : State) (r : CRingId) (w : Writer) : (s.requestWrite r w).deviceTime = s.deviceTime := rfl
@[simp] theorem State.requestWrite_loadAddr (s : State) (r : CRingId) (w : Writer) : (s.requestWrite r w).loadAddr = s.loadAddr := rfl
@[simp] theorem State.requestWrite_rings (s : State) (r : CRingId) (w : Writer) : (s.requestWrite r w).rings = s.rings := rfl
@[simp] theorem State.requestWrite_pool (s : State) (r : CRingId) (w : Writer) : (s.requestWrite r w).pool = s.pool := rfl
@[simp] theorem State.requestWrite_admin (s : State) (r : CRingId) (w : Writer) : (s.requestWrite r w).admin = s.admin := rfl
@[simp] theorem State.requestWrite_lines (s : State) (r : CRingId) (w : Writer) : (s.requestWrite r w).lines = s.lines := rfl
@[simp] theorem State.requestWrite_stations (s : State) (r : CRingId) (w : Writer) : (s.requestWrite r w).stations = s.stations := rfl
@[simp] theorem State.requestWrite_hostMem (s : State) (r : CRingId) (w : Writer) : (s.requestWrite r w).hostMem = s.hostMem := rfl
@[simp] theorem State.requestWrite_choices (s : State) (r : CRingId) (w : Writer) : (s.requestWrite r w).choices = s.choices := rfl
@[simp] theorem State.requestWrite_pending (s : State) (r : CRingId) (w : Writer) : (s.requestWrite r w).pending = s.pending := rfl

/-! ## The accessors after an update of another part -/

@[simp] theorem State.setCause_line_frame (s : State) (k : Nat) (l' : LineId) : (s.setCause k).line l' = s.line l' := rfl
@[simp] theorem State.setCause_ring_frame (s : State) (k : Nat) (r' : RingId) : (s.setCause k).ring r' = s.ring r' := rfl
@[simp] theorem State.setCause_cring_frame (s : State) (k : Nat) (r' : CRingId) : (s.setCause k).cring r' = s.cring r' := rfl
@[simp] theorem State.setCause_station_frame (s : State) (k : Nat) (e' : EntryId) : (s.setCause k).station e' = s.station e' := rfl
@[simp] theorem State.setCause_slot_frame (s : State) (k : Nat) (l' : LineId) (i' : SlotId) : (s.setCause k).slot l' i' = s.slot l' i' := rfl

@[simp] theorem State.clearCause_line_frame (s : State) (k : Nat) (l' : LineId) : (s.clearCause k).line l' = s.line l' := rfl
@[simp] theorem State.clearCause_ring_frame (s : State) (k : Nat) (r' : RingId) : (s.clearCause k).ring r' = s.ring r' := rfl
@[simp] theorem State.clearCause_cring_frame (s : State) (k : Nat) (r' : CRingId) : (s.clearCause k).cring r' = s.cring r' := rfl
@[simp] theorem State.clearCause_station_frame (s : State) (k : Nat) (e' : EntryId) : (s.clearCause k).station e' = s.station e' := rfl
@[simp] theorem State.clearCause_slot_frame (s : State) (k : Nat) (l' : LineId) (i' : SlotId) : (s.clearCause k).slot l' i' = s.slot l' i' := rfl

@[simp] theorem State.setLine_ring_frame (s : State) (l : LineId) (x : Line) (r' : RingId) : (s.setLine l x).ring r' = s.ring r' := rfl
@[simp] theorem State.setLine_cring_frame (s : State) (l : LineId) (x : Line) (r' : CRingId) : (s.setLine l x).cring r' = s.cring r' := rfl
@[simp] theorem State.setLine_station_frame (s : State) (l : LineId) (x : Line) (e' : EntryId) : (s.setLine l x).station e' = s.station e' := rfl

@[simp] theorem State.modLine_ring_frame (s : State) (l : LineId) (f : Line → Line) (r' : RingId) : (s.modLine l f).ring r' = s.ring r' := rfl
@[simp] theorem State.modLine_cring_frame (s : State) (l : LineId) (f : Line → Line) (r' : CRingId) : (s.modLine l f).cring r' = s.cring r' := rfl
@[simp] theorem State.modLine_station_frame (s : State) (l : LineId) (f : Line → Line) (e' : EntryId) : (s.modLine l f).station e' = s.station e' := rfl

@[simp] theorem State.modSlot_ring_frame (s : State) (l : LineId) (i : SlotId) (f : Slot → Slot) (r' : RingId) : (s.modSlot l i f).ring r' = s.ring r' := rfl
@[simp] theorem State.modSlot_cring_frame (s : State) (l : LineId) (i : SlotId) (f : Slot → Slot) (r' : CRingId) : (s.modSlot l i f).cring r' = s.cring r' := rfl
@[simp] theorem State.modSlot_station_frame (s : State) (l : LineId) (i : SlotId) (f : Slot → Slot) (e' : EntryId) : (s.modSlot l i f).station e' = s.station e' := rfl

@[simp] theorem State.setRing_line_frame (s : State) (r : RingId) (x : Option SubRing) (l' : LineId) : (s.setRing r x).line l' = s.line l' := rfl
@[simp] theorem State.setRing_cring_frame (s : State) (r : RingId) (x : Option SubRing) (r' : CRingId) : (s.setRing r x).cring r' = s.cring r' := rfl
@[simp] theorem State.setRing_station_frame (s : State) (r : RingId) (x : Option SubRing) (e' : EntryId) : (s.setRing r x).station e' = s.station e' := rfl
@[simp] theorem State.setRing_slot_frame (s : State) (r : RingId) (x : Option SubRing) (l' : LineId) (i' : SlotId) : (s.setRing r x).slot l' i' = s.slot l' i' := rfl

@[simp] theorem State.modRing_line_frame (s : State) (r : RingId) (f : SubRing → SubRing) (l' : LineId) : (s.modRing r f).line l' = s.line l' := rfl
@[simp] theorem State.modRing_cring_frame (s : State) (r : RingId) (f : SubRing → SubRing) (r' : CRingId) : (s.modRing r f).cring r' = s.cring r' := rfl
@[simp] theorem State.modRing_station_frame (s : State) (r : RingId) (f : SubRing → SubRing) (e' : EntryId) : (s.modRing r f).station e' = s.station e' := rfl
@[simp] theorem State.modRing_slot_frame (s : State) (r : RingId) (f : SubRing → SubRing) (l' : LineId) (i' : SlotId) : (s.modRing r f).slot l' i' = s.slot l' i' := rfl

@[simp] theorem State.setCRing_line_frame (s : State) (r : CRingId) (x : Option CRing) (l' : LineId) : (s.setCRing r x).line l' = s.line l' := rfl
@[simp] theorem State.setCRing_ring_frame (s : State) (r : CRingId) (x : Option CRing) (r' : RingId) : (s.setCRing r x).ring r' = s.ring r' := rfl
@[simp] theorem State.setCRing_station_frame (s : State) (r : CRingId) (x : Option CRing) (e' : EntryId) : (s.setCRing r x).station e' = s.station e' := rfl
@[simp] theorem State.setCRing_slot_frame (s : State) (r : CRingId) (x : Option CRing) (l' : LineId) (i' : SlotId) : (s.setCRing r x).slot l' i' = s.slot l' i' := rfl

@[simp] theorem State.modCRing_line_frame (s : State) (r : CRingId) (f : CRing → CRing) (l' : LineId) : (s.modCRing r f).line l' = s.line l' := rfl
@[simp] theorem State.modCRing_ring_frame (s : State) (r : CRingId) (f : CRing → CRing) (r' : RingId) : (s.modCRing r f).ring r' = s.ring r' := rfl
@[simp] theorem State.modCRing_station_frame (s : State) (r : CRingId) (f : CRing → CRing) (e' : EntryId) : (s.modCRing r f).station e' = s.station e' := rfl
@[simp] theorem State.modCRing_slot_frame (s : State) (r : CRingId) (f : CRing → CRing) (l' : LineId) (i' : SlotId) : (s.modCRing r f).slot l' i' = s.slot l' i' := rfl

@[simp] theorem State.setStation_line_frame (s : State) (e : EntryId) (x : Option Station) (l' : LineId) : (s.setStation e x).line l' = s.line l' := rfl
@[simp] theorem State.setStation_ring_frame (s : State) (e : EntryId) (x : Option Station) (r' : RingId) : (s.setStation e x).ring r' = s.ring r' := rfl
@[simp] theorem State.setStation_cring_frame (s : State) (e : EntryId) (x : Option Station) (r' : CRingId) : (s.setStation e x).cring r' = s.cring r' := rfl
@[simp] theorem State.setStation_slot_frame (s : State) (e : EntryId) (x : Option Station) (l' : LineId) (i' : SlotId) : (s.setStation e x).slot l' i' = s.slot l' i' := rfl

@[simp] theorem State.modStation_line_frame (s : State) (e : EntryId) (f : Station → Station) (l' : LineId) : (s.modStation e f).line l' = s.line l' := rfl
@[simp] theorem State.modStation_ring_frame (s : State) (e : EntryId) (f : Station → Station) (r' : RingId) : (s.modStation e f).ring r' = s.ring r' := rfl
@[simp] theorem State.modStation_cring_frame (s : State) (e : EntryId) (f : Station → Station) (r' : CRingId) : (s.modStation e f).cring r' = s.cring r' := rfl
@[simp] theorem State.modStation_slot_frame (s : State) (e : EntryId) (f : Station → Station) (l' : LineId) (i' : SlotId) : (s.modStation e f).slot l' i' = s.slot l' i' := rfl

@[simp] theorem State.reachUs_line_frame (s : State) (t : Nat) (l' : LineId) : (s.reachUs t).line l' = s.line l' := rfl
@[simp] theorem State.reachUs_ring_frame (s : State) (t : Nat) (r' : RingId) : (s.reachUs t).ring r' = s.ring r' := rfl
@[simp] theorem State.reachUs_cring_frame (s : State) (t : Nat) (r' : CRingId) : (s.reachUs t).cring r' = s.cring r' := rfl
@[simp] theorem State.reachUs_station_frame (s : State) (t : Nat) (e' : EntryId) : (s.reachUs t).station e' = s.station e' := rfl
@[simp] theorem State.reachUs_slot_frame (s : State) (t : Nat) (l' : LineId) (i' : SlotId) : (s.reachUs t).slot l' i' = s.slot l' i' := rfl

@[simp] theorem State.hostWrite_line_frame (s : State) (a : Nat) (bs : List Byte) (l' : LineId) : (s.hostWrite a bs).line l' = s.line l' := rfl
@[simp] theorem State.hostWrite_ring_frame (s : State) (a : Nat) (bs : List Byte) (r' : RingId) : (s.hostWrite a bs).ring r' = s.ring r' := rfl
@[simp] theorem State.hostWrite_cring_frame (s : State) (a : Nat) (bs : List Byte) (r' : CRingId) : (s.hostWrite a bs).cring r' = s.cring r' := rfl
@[simp] theorem State.hostWrite_station_frame (s : State) (a : Nat) (bs : List Byte) (e' : EntryId) : (s.hostWrite a bs).station e' = s.station e' := rfl
@[simp] theorem State.hostWrite_slot_frame (s : State) (a : Nat) (bs : List Byte) (l' : LineId) (i' : SlotId) : (s.hostWrite a bs).slot l' i' = s.slot l' i' := rfl

@[simp] theorem State.hostWriteMasked_line_frame (s : State) (a : Nat) (bs : List Byte) (m : List Bool) (l' : LineId) : (s.hostWriteMasked a bs m).line l' = s.line l' := rfl
@[simp] theorem State.hostWriteMasked_ring_frame (s : State) (a : Nat) (bs : List Byte) (m : List Bool) (r' : RingId) : (s.hostWriteMasked a bs m).ring r' = s.ring r' := rfl
@[simp] theorem State.hostWriteMasked_cring_frame (s : State) (a : Nat) (bs : List Byte) (m : List Bool) (r' : CRingId) : (s.hostWriteMasked a bs m).cring r' = s.cring r' := rfl
@[simp] theorem State.hostWriteMasked_station_frame (s : State) (a : Nat) (bs : List Byte) (m : List Bool) (e' : EntryId) : (s.hostWriteMasked a bs m).station e' = s.station e' := rfl
@[simp] theorem State.hostWriteMasked_slot_frame (s : State) (a : Nat) (bs : List Byte) (m : List Bool) (l' : LineId) (i' : SlotId) : (s.hostWriteMasked a bs m).slot l' i' = s.slot l' i' := rfl

@[simp] theorem State.hostWriteCut_line_frame (s : State) (a : Nat) (bs : List Byte) (l' : LineId) : (s.hostWriteCut a bs).line l' = s.line l' := rfl
@[simp] theorem State.hostWriteCut_ring_frame (s : State) (a : Nat) (bs : List Byte) (r' : RingId) : (s.hostWriteCut a bs).ring r' = s.ring r' := rfl
@[simp] theorem State.hostWriteCut_cring_frame (s : State) (a : Nat) (bs : List Byte) (r' : CRingId) : (s.hostWriteCut a bs).cring r' = s.cring r' := rfl
@[simp] theorem State.hostWriteCut_station_frame (s : State) (a : Nat) (bs : List Byte) (e' : EntryId) : (s.hostWriteCut a bs).station e' = s.station e' := rfl
@[simp] theorem State.hostWriteCut_slot_frame (s : State) (a : Nat) (bs : List Byte) (l' : LineId) (i' : SlotId) : (s.hostWriteCut a bs).slot l' i' = s.slot l' i' := rfl

@[simp] theorem State.reserve_line_frame (s : State) (r : CRingId) (l' : LineId) : (s.reserve r).line l' = s.line l' := rfl
@[simp] theorem State.reserve_ring_frame (s : State) (r : CRingId) (r' : RingId) : (s.reserve r).ring r' = s.ring r' := rfl
@[simp] theorem State.reserve_station_frame (s : State) (r : CRingId) (e' : EntryId) : (s.reserve r).station e' = s.station e' := rfl
@[simp] theorem State.reserve_slot_frame (s : State) (r : CRingId) (l' : LineId) (i' : SlotId) : (s.reserve r).slot l' i' = s.slot l' i' := rfl

@[simp] theorem State.gainPlace_ring_frame (s : State) (r : CRingId) (r' : RingId) : (s.gainPlace r).ring r' = s.ring r' := rfl
@[simp] theorem State.gainPlace_cring_frame (s : State) (r : CRingId) (r' : CRingId) : (s.gainPlace r).cring r' = s.cring r' := rfl
@[simp] theorem State.gainPlace_station_frame (s : State) (r : CRingId) (e' : EntryId) : (s.gainPlace r).station e' = s.station e' := rfl

@[simp] theorem State.returnReservation_ring_frame (s : State) (r : CRingId) (r' : RingId) : (s.returnReservation r).ring r' = s.ring r' := rfl
@[simp] theorem State.returnReservation_station_frame (s : State) (r : CRingId) (e' : EntryId) : (s.returnReservation r).station e' = s.station e' := rfl

@[simp] theorem State.signalRing_line_frame (s : State) (r : CRingId) (l' : LineId) : (s.signalRing r).line l' = s.line l' := rfl
@[simp] theorem State.signalRing_ring_frame (s : State) (r : CRingId) (r' : RingId) : (s.signalRing r).ring r' = s.ring r' := rfl
@[simp] theorem State.signalRing_station_frame (s : State) (r : CRingId) (e' : EntryId) : (s.signalRing r).station e' = s.station e' := rfl
@[simp] theorem State.signalRing_slot_frame (s : State) (r : CRingId) (l' : LineId) (i' : SlotId) : (s.signalRing r).slot l' i' = s.slot l' i' := rfl

@[simp] theorem State.rejectPost_line_frame (s : State) (e : PostError) (l' : LineId) : (s.rejectPost e).line l' = s.line l' := rfl
@[simp] theorem State.rejectPost_ring_frame (s : State) (e : PostError) (r' : RingId) : (s.rejectPost e).ring r' = s.ring r' := rfl
@[simp] theorem State.rejectPost_cring_frame (s : State) (e : PostError) (r' : CRingId) : (s.rejectPost e).cring r' = s.cring r' := rfl
@[simp] theorem State.rejectPost_station_frame (s : State) (e : PostError) (e' : EntryId) : (s.rejectPost e).station e' = s.station e' := rfl
@[simp] theorem State.rejectPost_slot_frame (s : State) (e : PostError) (l' : LineId) (i' : SlotId) : (s.rejectPost e).slot l' i' = s.slot l' i' := rfl

@[simp] theorem State.requestWrite_line_frame (s : State) (r : CRingId) (w : Writer) (l' : LineId) : (s.requestWrite r w).line l' = s.line l' := rfl
@[simp] theorem State.requestWrite_ring_frame (s : State) (r : CRingId) (w : Writer) (r' : RingId) : (s.requestWrite r w).ring r' = s.ring r' := rfl
@[simp] theorem State.requestWrite_station_frame (s : State) (r : CRingId) (w : Writer) (e' : EntryId) : (s.requestWrite r w).station e' = s.station e' := rfl
@[simp] theorem State.requestWrite_slot_frame (s : State) (r : CRingId) (w : Writer) (l' : LineId) (i' : SlotId) : (s.requestWrite r w).slot l' i' = s.slot l' i' := rfl

/-! ## The accessors after an update of their own part -/

@[simp] theorem State.line_setLine_same (s : State) (l : LineId) (x : Line) : (s.setLine l x).line l = x :=
  vget_vput_same _ _ _

@[simp] theorem State.line_setLine_ne (s : State) {l k : LineId} (x : Line) (h : k ≠ l) : (s.setLine l x).line k = s.line k :=
  vget_vput_ne _ _ h

@[simp] theorem State.line_modLine_same (s : State) (l : LineId) (f : Line → Line) : (s.modLine l f).line l = f (s.line l) :=
  State.line_setLine_same _ _ _

@[simp] theorem State.line_modLine_ne (s : State) {l k : LineId} (f : Line → Line) (h : k ≠ l) :
    (s.modLine l f).line k = s.line k :=
  State.line_setLine_ne _ _ h

@[simp] theorem State.ring_setRing_same (s : State) (r : RingId) (x : Option SubRing) : (s.setRing r x).ring r = x :=
  vget_vput_same _ _ _

@[simp] theorem State.ring_setRing_ne (s : State) {r q : RingId} (x : Option SubRing) (h : q ≠ r) : (s.setRing r x).ring q = s.ring q :=
  vget_vput_ne _ _ h

@[simp] theorem State.ring_modRing_same (s : State) (r : RingId) (f : SubRing → SubRing) : (s.modRing r f).ring r = (s.ring r).map f :=
  State.ring_setRing_same _ _ _

@[simp] theorem State.ring_modRing_ne (s : State) {r q : RingId} (f : SubRing → SubRing) (h : q ≠ r) :
    (s.modRing r f).ring q = s.ring q :=
  State.ring_setRing_ne _ _ h

@[simp] theorem State.cring_setCRing_same (s : State) (r : CRingId) (x : Option CRing) : (s.setCRing r x).cring r = x :=
  vget_vput_same _ _ _

@[simp] theorem State.cring_setCRing_ne (s : State) {r q : CRingId} (x : Option CRing) (h : q ≠ r) : (s.setCRing r x).cring q = s.cring q :=
  vget_vput_ne _ _ h

@[simp] theorem State.cring_modCRing_same (s : State) (r : CRingId) (f : CRing → CRing) : (s.modCRing r f).cring r = (s.cring r).map f :=
  State.cring_setCRing_same _ _ _

@[simp] theorem State.cring_modCRing_ne (s : State) {r q : CRingId} (f : CRing → CRing) (h : q ≠ r) :
    (s.modCRing r f).cring q = s.cring q :=
  State.cring_setCRing_ne _ _ h

@[simp] theorem State.station_setStation_same (s : State) (r : EntryId) (x : Option Station) : (s.setStation r x).station r = x :=
  vget_vput_same _ _ _

@[simp] theorem State.station_setStation_ne (s : State) {r q : EntryId} (x : Option Station) (h : q ≠ r) : (s.setStation r x).station q = s.station q :=
  vget_vput_ne _ _ h

@[simp] theorem State.station_modStation_same (s : State) (r : EntryId) (f : Station → Station) : (s.modStation r f).station r = (s.station r).map f :=
  State.station_setStation_same _ _ _

@[simp] theorem State.station_modStation_ne (s : State) {r q : EntryId} (f : Station → Station) (h : q ≠ r) :
    (s.modStation r f).station q = s.station q :=
  State.station_setStation_ne _ _ h

@[simp] theorem Line.slot_setSlot_same (x : Line) (i : SlotId) (v : Option Slot) : (x.setSlot i v).slot i = v :=
  vget_vput_same _ _ _

@[simp] theorem Line.slot_setSlot_ne (x : Line) {i j : SlotId} (v : Option Slot) (h : j ≠ i) : (x.setSlot i v).slot j = x.slot j :=
  vget_vput_ne _ _ h

@[simp] theorem Line.slot_modSlot_same (x : Line) (i : SlotId) (f : Slot → Slot) : (x.modSlot i f).slot i = (x.slot i).map f :=
  Line.slot_setSlot_same _ _ _

@[simp] theorem Line.slot_modSlot_ne (x : Line) {i j : SlotId} (f : Slot → Slot) (h : j ≠ i) :
    (x.modSlot i f).slot j = x.slot j :=
  Line.slot_setSlot_ne _ _ h

@[simp] theorem Line.slot_mapSlots (x : Line) (f : Slot → Slot) (i : SlotId) : (x.mapSlots f).slot i = (x.slot i).map f :=
  vget_vmap _ _ _

@[simp] theorem State.line_gainPlace (s : State) (r : CRingId) (l : LineId) :
    (s.gainPlace r).line l = (s.line l).placeGained r :=
  vget_vmap _ _ _

/-! ## What a shared operation does, said once -/

/-- A ring gaining a place changes of a line at most that its Scanner may claim again. -/
theorem Line.placeGained_eq (r : CRingId) (x : Line) :
    x.placeGained r = { x with scanner := { x.scanner with refused := (x.placeGained r).scanner.refused } } := by
  unfold Line.placeGained
  split
  · split <;> rfl
  · rfl

/-- The coalescing steps at the end of a record write change the causes and completion rings alone (R144). -/
theorem State.coalesce_frame (s : State) (r : CRingId) (urgent : Bool) :
    s.coalesce r urgent =
      { s with intcause := (s.coalesce r urgent).intcause, crings := (s.coalesce r urgent).crings } := by
  unfold State.coalesce
  dsimp only
  split
  · rfl
  · split
    · rfl
    · split
      · rfl
      · split <;> rfl

/-- The coalescing steps reach no other completion ring (R144). -/
theorem State.coalesce_cring_ne (s : State) {r q : CRingId} (urgent : Bool) (h : q ≠ r) :
    (s.coalesce r urgent).cring q = s.cring q := by
  unfold State.coalesce
  dsimp only
  split
  · exact State.cring_modCRing_ne _ _ h
  · split
    · simp [State.signalRing, h]
    · split
      · simp [State.signalRing, h]
      · split <;> simp [h]

/-- A claim that is granted leaves room: the ring's written-unreleased and reserved places stay within its size (R140). -/
theorem State.reserve_within (s : State) (r : CRingId) (h : s.canReserve r = true) :
    ∃ c, s.cring r = some c ∧ (s.reserve r).cring r = some { c with reserved := c.reserved + 1 }
      ∧ c.written + (c.reserved + 1) ≤ ringSize c.sizeCode := by
  unfold State.canReserve at h
  cases hc : s.cring r with
  | none => simp [hc] at h
  | some c =>
    simp only [hc, decide_eq_true_eq] at h
    exact ⟨c, rfl, by simp [State.reserve, hc], by omega⟩

/-- A pool claim that is granted takes the entry at the head, at base + 8 × head, and advances the head alone (R113). -/
theorem State.poolClaim_some {s t : State} {i : Nat} {a : Addr} (h : s.poolClaim = some ((i, a), t)) :
    ∃ p, s.pool = some p ∧ p.head ≠ p.tail ∧ i = p.head ∧ a = p.base + BitVec.ofNat 64 (8 * p.head)
      ∧ t = { s with pool := some { p with head := nextIndex (ringSize p.sizeCode) p.head } } := by
  unfold State.poolClaim at h
  split at h
  · cases h
  · rename_i p hp
    split at h
    · cases h
    · rename_i hne
      cases h
      exact ⟨p, hp, hne, rfl, rfl, rfl⟩

/-- A record read of ring 0 is of the place at the head, at base + 32 × head (R123, R134). -/
theorem State.beginAdminRead_read {s : State} {x : SubRing} (h : s.ring 0 = some x) :
    s.beginAdminRead.admin.read = some ⟨x.head, x.base + BitVec.ofNat 64 (32 * x.head)⟩ := by
  simp [State.beginAdminRead, h, SubRing.placeAddr]

/-- An entry that lookup finds is in use with the key (R18). -/
theorem State.lookup_some {s : State} {l : LineId} {a : Nat} {e : EntryId} (h : s.lookup l a = some e) :
    ∃ x, s.station e = some x ∧ x.line = l ∧ x.addr = a := by
  have hp := List.find?_some h
  unfold State.entryHasKey at hp
  cases hx : s.station e with
  | none => simp [hx] at hp
  | some x => simp only [hx, Bool.and_eq_true, beq_iff_eq] at hp; exact ⟨x, rfl, hp.1, hp.2⟩

/-- Where at most one entry has a key, lookup finds each entry in use by its key (R18). -/
theorem State.lookup_of_station {s : State} (hk : s.KeysOk) {e : EntryId} {x : Station} (h : s.station e = some x) :
    s.lookup x.line x.addr = some e := by
  have hin : s.entryHasKey x.line x.addr e = true := by simp [State.entryHasKey, h]
  cases hl : s.lookup x.line x.addr with
  | none => exact absurd hin (by simpa using List.find?_eq_none.mp hl e (List.mem_finRange e))
  | some f =>
    obtain ⟨y, hy, h1, h2⟩ := State.lookup_some hl
    exact congrArg some (hk.2 f e y hy x h h1 h2)

end Machine
end Sys2Proof
end

