-- ==== Sys2Proof/Laws/Step.lean ====
section
/-! SUPPORT. Every command and event has a next state, in every state: no step ends in a fault or a refusal. -/

namespace Sys2Proof.Machine

/-- Every command and event answers a next state. -/
theorem exec_next (i : Instr) (s : State) : ∃ t, exec i s = .next t := by
  cases i <;> exact ⟨_, rfl⟩

/-- Every step answers a next state. -/
theorem step_next (s : State) : ∃ t, step s = .next t := by
  unfold step
  split
  · exact exec_next _ _
  · exact ⟨_, rfl⟩

end Sys2Proof.Machine
end

