-- ==== Sys2Proof/Tests/Slice0.lean ====
section
/-! SUPPORT. Own tests: the operand shapes that WellFormed refuses, the layouts of the records by bytes written out from section 11, one step
of each command and event on a small state with the result that its rule gives, and, for each statement with hypotheses, a concrete state and
operands that meet them. -/

namespace Sys2Proof.Tests
open Sys2Proof Sys2Proof.Machine Sys2Proof.Claims

set_option maxRecDepth 4096

/-! ## WellFormed refuses each ill-formed shape -/

theorem test_wf_bootstrapRead_short : (Instr.bootstrapRead (.ok [])).wellFormed = false := by decide
theorem test_wf_recordRead_short : (Instr.recordRead 0 (.ok (List.replicate 31 0))).wellFormed = false := by decide
theorem test_wf_adminRecordRead_long : (Instr.adminRecordRead (.ok (List.replicate 33 0))).wellFormed = false := by decide
theorem test_wf_poolEntryRead_short : (Instr.poolEntryRead 0 (.ok [1])).wellFormed = false := by decide
theorem test_wf_payloadRead_long : (Instr.payloadRead 0 0 (.ok (List.replicate 65 0))).wellFormed = false := by decide
theorem test_wf_dataWrite_long : (Instr.dataWrite 0 0 (.error (List.replicate 65 true))).wellFormed = false := by decide
theorem test_wf_scanDataWrite_long : (Instr.scanDataWrite 0 (.error (List.replicate 65 true))).wellFormed = false := by decide
theorem test_wf_reportWrite_long : (Instr.reportWrite (.error (List.replicate 33 true))).wellFormed = false := by decide
theorem test_wf_completionWrite_byte15 : (Instr.completionWrite 0 (.error (List.replicate 16 true))).wellFormed = false := by decide
theorem test_wf_accepts : (Instr.recordRead 0 (.ok (List.replicate 32 0))).wellFormed = true := by decide

/-! ## Record layouts by their bytes (section 11.2, 11.3) -/

/-- A STORE with tag 0x1234, FENCE and SYNC, address 5, retry 2, out length 3, one param 0xAA and buffer 0x50000. -/
def storeBytes : List Byte :=
  [0x34, 0x12, 2, 5, 5, 2, 3, 0, 1, 0, 0, 0, 0, 0, 0, 0, 0xAA, 0, 0, 0, 0, 0, 0, 0, 0, 0, 5, 0, 0, 0, 0, 0]

theorem test_decode_store : decodeSub storeBytes = ⟨0x1234, 2, 5, 5, 2, 3, 0, 1, true, [0xAA, 0, 0, 0, 0, 0, 0, 0], 0x50000⟩ := by
  decide

/-- RING_CREATE (kind 0x10) with tag 7: ring 3, size code 5, line 1, class 2, C1, base 0x40000. -/
theorem test_decode_ring_create :
    decodeAdmin [7, 0, 0x10, 0, 0, 0, 0, 0, 3, 5, 1, 2, 1, 0, 0, 0, 0, 0, 4, 0, 0, 0, 0, 0, 0, 0, 0, 0, 0, 0, 0, 0]
      = some (.ringCreate 3 5 1 2 1 0x40000) := by decide

/-- STATION_ATTACH (kind 0x1C): line 1, address 22, scan period 0x0105. -/
theorem test_decode_station_attach :
    decodeAdmin ([9, 0, 0x1C, 0, 0, 0, 0, 0, 1, 22, 5, 1] ++ List.replicate 20 0) = some (.stationAttach 1 22 0x0105) := by decide

/-- CRING_POLICY (kind 0x15): C1, threshold 4, interrupt enable, time 200 µs. -/
theorem test_decode_cring_policy :
    decodeAdmin ([9, 0, 0x15, 0, 0, 0, 0, 0, 1, 0, 4, 1, 200, 0] ++ List.replicate 18 0) = some (.cringPolicy 1 4 true 200) := by
  decide

/-- A zero field that is not zero is BAD_RECORD (R153): POOL_DELETE with byte 31 at 1. -/
theorem test_decode_nonzero_zero_field :
    decodeAdmin ([9, 0, 0x18] ++ List.replicate 28 0 ++ [1]) = none := by decide

/-- The bootstrap record (section 11.2): ring 0 at 0x10000 with size code 4, C0 at 0x20000 with size code 5, threshold 4, interrupt enable,
time 200 µs. -/
def bootBytes : List Byte :=
  [0, 0, 1, 0, 0, 0, 0, 0, 4, 5, 4, 1, 200, 0, 0, 0, 0, 0, 2, 0, 0, 0, 0, 0, 0, 0, 0, 0, 0, 0, 0, 0]

theorem test_decode_bootstrap : decodeBoot bootBytes = ⟨0x10000, 4, 5, 4, true, 200, true, 0x20000⟩ := by decide

/-- The layout of a TXN record: tag 0x1234, kind 1 with station state ONLINE (2), STATION_BUSY (5), ring 3, 2 attempts, address 22, busy 7,
detail TIMEOUT (1), result 0x0203, pass flag 1. -/
theorem test_completion_layout :
    (CompRecord.mk .txn 0x1234 (some .online) .stationBusy 3 2 22 4 7 1 0x0203 0).bytes true
      = [0x34, 0x12, 0x21, 5, 0x23, 22, 4, 7, 1, 3, 2, 0, 0, 0, 0, 1] := by decide

/-- The check value of the nine characters "123456789" (R13). -/
theorem test_check_value :
    checkValue [0x31, 0x32, 0x33, 0x34, 0x35, 0x36, 0x37, 0x38, 0x39] = 0x29B1#16 := by decide

theorem test_reset_memory_form : memWf State.reset.hostMem = true := by decide

/-! ## A small part: line 1 async and RUNNING, ring 1 into C1, one ONLINE station at address 5 -/

/-- Async, 9600 bit/s, no parity, one stop bit, notice ring C1, the other fields at their defaults (R86). -/
def cfg : LineConfig := ⟨.async, 3, .none, 1, 2, 40, 3, 2, 2, 4, 10, 16, 1000, some 1⟩

/-- The same, clocked at 1000000 bit/s. -/
def cfgClocked : LineConfig := { cfg with mode := .clocked }

/-- A completion ring of eight places with threshold 4 and time 200 µs. -/
def cr : CRing := ⟨0x20000, 3, 0, 0, 0, 0, true, 4, 200, true, 0, none, none, []⟩

/-- An ONLINE station at address 5 of line 1. -/
def st : Station := ⟨1, 5, .online, false, false, 0, none, false, 0, 0, false, 0, 0, 0, 0, 0, 0, none⟩

/-- The line in IDLE. -/
def ln : Line := { Line.reset .mark with config := some cfg, run := .running, phase := some .idle }

/-- The RUNNING part. -/
def up : State :=
  { State.reset with
    device := .running, enable := true, bootAddr := 0x1000
    rings := vput (vput State.reset.rings 0 (some ⟨.active, 0x10000, 4, 0, 0, none, none, 0, 0, false⟩)) 1
      (some ⟨.active, 0x40000, 3, 0, 0, some 1, some 1, 1, 0, false⟩)
    crings := vput (vput State.reset.crings 0 (some cr)) 1 (some cr)
    pool := some ⟨0x70000, 2, 0, 1⟩
    stations := vput State.reset.stations 0 (some st)
    lines := vput State.reset.lines 1 ln }

/-- The part with ring 0's record read in progress. -/
def asks : State :=
  { up.modRing 0 (fun x => { x with tail := 1 }) with
    admin := ⟨.reading, none, false, some ⟨0, 0x10000⟩⟩
    crings := vput up.crings 0 (some { cr with reserved := 1 }) }

/-- A FETCH of station 5 with in limit 2 and buffer 0x50000. -/
def fetchBytes : List Byte := encodeSub ⟨0x1234, 1, 0, 5, 1, 0, 2, 0, true, List.replicate 8 0, 0x50000⟩

/-- A slot of line 1 that holds that record. -/
def slotIn (x : SlotState) : Slot := ⟨x, fetchBytes, 1, 0, 0, 0, none, false, false, [], none, [], false, none⟩

/-- The part with line 1 and C1 replaced; ring 1 has one record in flight and C1 one reservation. -/
def with1 (x : Line) : State :=
  { up.setLine 1 x with
    rings := (up.modRing 1 fun r => { r with inFlight := 1 }).rings
    crings := vput up.crings 1 (some { cr with reserved := 1 }) }

/-- The FETCH's exchange with station 5, toggle 0. -/
def att : Attempt := ⟨.slot 0, 5, requestFrame 5 .fetch false false [], false⟩

/-- Line 1 in a phase of that exchange. -/
def inPhase (p : Phase) : Line :=
  { ln with
    phase := some p, attempt := some att, slots := vput ln.slots 0 (some (slotIn .active))
    pins := { ln.pins with de := p == .lead || p == .sending } }

/-- The state after a step, the old one where it has none. -/
def after (i : Instr) (s : State) : State :=
  match exec i s with
  | .next t => t
  | _ => s

/-- The status of the completion record being written into a ring. -/
def writes (s : State) (r : CRingId) : Option Status := (s.cring r).bind fun c => c.write.map (·.record.status)

/-- The status and result value decided for the admin command in progress. -/
def decided (s : State) : Option (Status × Nat) := s.admin.command.bind (·.result)

/-- The status and result value decided for slot 0 of line 1. -/
def outcome (s : State) : Option (Status × Nat) := (s.slot 1 0).bind fun x => x.outcome.map fun o => (o.status, o.result)

/-! ## Whole steps: the command's effect and then the units' own acts -/

theorem test_power_on_reset : (after .powerOnReset up).resetCause = .power := by decide
theorem test_hard_reset : (after .hardReset up).resetCause = .hard ∧ (after .hardReset up).ring 0 = none := by decide

/-- An accepted POST lets the line's Intake begin the read of the place at the head, 3, at base + 96 (R40, R123). -/
theorem test_post_starts_a_record_read :
    ((after (.post 1 4) (up.modRing 1 fun r => { r with head := 3, tail := 3 })).line 1).read = some ⟨1, 3, 0x40060, []⟩ := by decide

/-- A head past what is written is BAD_INDEX (R142). -/
theorem test_release_bad_index : (after (.release 1 1) up).postError = .badIndex := by decide
theorem test_intcause_clears_ones : (after (.intcause 0x30) { up with intcause := 0x31 }).intcause = 0x01#6 := by decide
theorem test_register_write_boot_hi : (after (.registerWrite .bootHi 0xABCD) up).bootAddr = 0x0000ABCD00001000#64 := by decide

/-- INTR is asserted once INT_ENABLE is 1 with POSTERR set (R149). -/
theorem test_int_enable : (after (.intEnable true) { up with intcause := 0x20 }).intr = true := by decide

/-- A valid bootstrap record starts the part (R173). -/
theorem test_bootstrap_read : (after (.bootstrapRead (.ok bootBytes)) { State.reset with device := .loading }).device = .running := by
  decide

/-- A good record for an ONLINE station is granted at once: LEAD begins (R45, R52). -/
theorem test_record_read_granted :
    ((after (.recordRead 1 (.ok fetchBytes)) (with1 { ln with read := some ⟨1, 0, 0x40000, []⟩ })).line 1).phase = some .lead := by decide

/-- An empty ring is drained at once and RING_DELETE completes OK (R132). -/
theorem test_ring_delete : writes (after (.ringDelete 7 1 0) asks) 0 = some .ok := by decide

/-- A graceful LINE_STOP of a line with nothing in hand is over at once (R68). -/
theorem test_line_stop : ((after (.lineStop 7 1 0) asks).line 1).run = .stopped := by decide

/-- The part with a LINE_NOTICE being written into C1. -/
def noticing : State :=
  let n := lineNoticeRecord 1 ln
  { with1 { ln with notice := some ⟨1, n⟩ } with
    crings := vput up.crings 1 (some { cr with reserved := 1, write := some ⟨.notice 1, 0, n, n.bytes true⟩ }) }

/-- A notice is urgent: its end sets the ring's cause, and the tail advances (R138, R143, R144). -/
theorem test_completion_write :
    (after (.completionWrite 1 .ok) noticing).intcause = 0x02#6
      ∧ ((after (.completionWrite 1 .ok) noticing).cring 1).map (fun c => (c.tail, c.written, c.reserved)) = some (1, 1, 0) := by decide

/-- A step takes the command at the front of the queue. -/
theorem test_step_takes_front :
    (match step { up with pending := [.intEnable true, .hardReset] } with
      | .next t => (t.intEnable, t.pending)
      | _ => (false, [])) = (true, [.hardReset]) := by decide

/-! ## The effect of the other commands and events, before the units act -/

/-- ENABLE in OFF with a bootstrap address that is no multiple of 32 faults the part (R173). -/
theorem test_enable_bad_boot : ({ State.reset with bootAddr := 0x1001 }.writeEnable true).faultCode = .badBoot := by decide

/-- A tail outside the ring of eight places is BAD_INDEX (R125). -/
theorem test_post_bad_index : (up.writePost 1 8).postError = .badIndex := by decide

/-- A record for a station that is not in the table completes NO_STATION (R44). -/
theorem test_record_read_no_station :
    outcome ((with1 { ln with read := some ⟨1, 0, 0x40000, []⟩ }).recordReadEnds 1
      (.ok (encodeSub ⟨1, 1, 0, 6, 1, 0, 2, 0, true, List.replicate 8 0, 0x50000⟩))) = some (.noStation, 0) := by decide

theorem test_ring_create : (asks.takeCommand 7 (.ringCreate 3 5 1 2 1 0x40000)).ring 3
    = some ⟨.active, 0x40000, 5, 0, 0, some 1, some 2, 1, 0, false⟩ := by decide
theorem test_ring_pause : ((asks.takeCommand 7 (.ringPause 1)).ring 1).map (·.state) = some .paused := by decide
theorem test_ring_resume_active : decided (asks.takeCommand 7 (.ringResume 1 0xFF)) = some (.wrongState, 0) := by decide
theorem test_cring_create : ((asks.takeCommand 7 (.cringCreate 2 3 1 true 0 0x30000)).cring 2).map (·.pass) = some true := by decide

/-- A threshold lowered to the unsignalled count sets the ring's cause (R146). -/
theorem test_cring_policy :
    ((asks.setCRing 1 (some { cr with unsignalled := 2 })).takeCommand 7 (.cringPolicy 1 2 true 200)).intcause = 0x02#6 := by decide

theorem test_cring_delete_in_use : decided (asks.takeCommand 7 (.cringDelete 1)) = some (.inUse, 0) := by decide
theorem test_pool_create_in_use : decided (asks.takeCommand 7 (.poolCreate 2 0x70000)) = some (.inUse, 0) := by decide
theorem test_pool_delete : (asks.takeCommand 7 .poolDelete).pool = none := by decide
theorem test_line_config_running :
    decided (asks.takeCommand 7 (.lineConfig 1 ⟨0, 3, 0, 1, 2, 0, 40, 3, 2, 2, 4, 10, 16, 1, 1000⟩)) = some (.wrongState, 0) := by decide
theorem test_line_start_unconfigured : decided (asks.takeCommand 7 (.lineStart 2)) = some (.wrongState, 0) := by decide
theorem test_station_attach :
    ((asks.takeCommand 7 (.stationAttach 1 6 0)).station 1).map (fun x => (x.state, x.syncNeeded)) = some (.new, true) := by decide
theorem test_station_detach : (asks.takeCommand 7 (.stationDetach 1 5)).station 0 = none := by decide

/-- The result value of STATION_SCAN is the period held before (R154). -/
theorem test_station_scan :
    decided ((asks.modStation 0 fun x => { x with scanPeriod := 20 }).takeCommand 7 (.stationScan 1 5 0)) = some (.ok, 20) := by decide

theorem test_station_query_reports :
    ((asks.takeCommand 7 (.stationQuery 0 false 0x80000)).admin.command.map fun c => c.report.take 4) = some [0, 1, 5, 2] := by decide
theorem test_line_query_part : decided (asks.takeCommand 7 (.lineQuery 1 3 false 0x80000)) = some (.badParam, 0) := by decide

/-- Kind 0x21 is no admin kind (R153). -/
theorem test_admin_record_read_unknown :
    decided (asks.adminReadEnds (.ok ([7, 0, 0x21] ++ List.replicate 29 0))) = some (.badRecord, 0) := by decide

/-- A payload read error completes HOST_READ_ERROR (R98). -/
theorem test_payload_read_error :
    outcome ((with1 { ln with slots := vput ln.slots 0 (some (slotIn .loading)) }).payloadReadEnds 1 0 .error)
      = some (.hostReadError, 0) := by decide

/-- Three bytes against an in limit of two: OVERLENGTH with result value 2, and two bytes written (R59, R102). -/
theorem test_data_write_overlength :
    let t := (with1 { ln with slots := vput ln.slots 0 (some { slotIn .storing with response := [7, 8, 9] }) }).dataWriteEnds 1 0 .ok
    outcome t = some (.overlength, 2) ∧ t.hostMem = [(0x50000, 7), (0x50001, 8)] := by decide

/-- The delivery of one byte to the station's buffer. -/
def delivers (b : Option Addr) : State :=
  with1 { ln with scanner := ⟨.delivering, some 1, none, some ⟨0, 5, 0, 0x70000, [7], b, none, none⟩, false⟩ }

/-- A buffer address of 2^56 is not written (R114). -/
theorem test_pool_entry_read_high :
    (((delivers none).poolReadEnds 1 (.ok [0, 0, 0, 0, 0, 0, 0, 1])).line 1).scanner.delivery.bind (·.status)
      = some .hostWriteError := by decide
theorem test_scan_data_write : ((delivers (some 0x90000)).scanWriteEnds 1 .ok).hostMem = [(0x90000, 7)] := by decide

/-- The part with a report write in progress. -/
def reporting : State :=
  { asks with admin := ⟨.reporting, some ⟨encodeAdmin 7 (.stationQuery 0 false 0x80000), 0, List.replicate 32 0, none, none⟩, false, none⟩ }

/-- The end of a query's report write: OK with result value 32 (R170). -/
theorem test_report_write : decided (reporting.reportWriteEnds .ok) = some (.ok, 32) := by decide

theorem test_lead_time :
    (((with1 { inPhase .lead with timers := { ln.timers with lead := some 0 } }).leadEnds 1).line 1).phase = some .sending := by decide

/-- After the last of the five characters the driver goes off and the response is awaited (R78). -/
theorem test_character_sent_last :
    let y := ((with1 { inPhase .sending with sentPos := 4, echoes := 5 }).characterEnds 1).line 1
    y.phase = some .awaiting ∧ y.pins.de = false := by decide

/-- A character with the mark bit set. -/
def marked (v : Byte) : RawChar := ⟨v, true, false, true, true⟩

/-- A character in IDLE is a stray and the line settles (R74). -/
theorem test_character_received_idle :
    let y := (up.characterArrives 1 (marked 3)).line 1
    y.counters.stray = 1 ∧ y.phase = some .settle := by decide

/-- The response's ADDR is 128 plus the address with the mark bit set (R11, R79). -/
theorem test_character_received_addr :
    (((with1 (inPhase .awaiting)).characterArrives 1 (marked 133)).line 1).phase = some .receiving := by decide

theorem test_rxd_transition : ((up.rxdTakes 1 .space).line 1).timers.stuck = some 0 := by decide

/-- A response timeout with retries left: counted, and the slot waits for its next attempt (R56, R79). -/
theorem test_response_timeout :
    let y := ((with1 { inPhase .awaiting with timers := { ln.timers with response := some 0 } }).responseExpires 1).line 1
    y.counters.timeouts = 1 ∧ y.phase = some .settle ∧ (y.slot 0).map (fun x => (x.state, x.attempts)) = some (.ready, 1) := by decide

theorem test_gap_limit :
    (((with1 { inPhase .receiving with timers := { ln.timers with gap := some 0 } }).gapExpires 1).line 1).counters.truncated = 1 := by
  decide

/-- Line 1 in SETTLE with its timers from 0. -/
def settling : Line := { ln with phase := some .settle, timers := { ln.timers with settle := some 0, settleLimit := some 0 } }

theorem test_settle_time : (((up.setLine 1 settling).settleExpires 1).line 1).phase = some .idle := by decide
theorem test_settle_limit : (((up.setLine 1 settling).settleLimitExpires 1).line 1).faultCause = some .notQuiet := by decide

/-- Line 1 in STARTING with its start timers from 0. -/
def starting (c : LineConfig) : Line :=
  { ln with
    config := some c, run := .starting, phase := none
    timers := { ln.timers with startQuiet := some 0, startLimit := some 0, settle := some 0 } }

theorem test_start_quiet : (((up.setLine 1 (starting cfg)).startQuietExpires 1).line 1).run = .running := by decide
theorem test_start_limit : (((up.setLine 1 (starting cfg)).startLimitExpires 1).line 1).run = .faulted := by decide
theorem test_stuck_limit :
    (((up.setLine 1 { ln with timers := { ln.timers with stuck := some 0 } }).stuckExpires 1).line 1).faultCause = some .stuck := by decide
theorem test_clocked_start_wait : (((up.setLine 1 (starting cfgClocked)).clockedWaitEnds 1).line 1).phase = some .idle := by decide
theorem test_hold_off_end :
    let t := (up.modStation 0 fun x => { x with holdUntil := some 3 }).holdOffExpires 0
    (t.station 0).map (·.holdUntil) = some none ∧ t.nowMs = 3 := by decide
theorem test_next_due : ((up.modStation 0 fun x => { x with nextDue := 7 }).dueReached 0).nowMs = 7 := by decide
theorem test_coalescing_timer :
    ((up.setCRing 1 (some { cr with unsignalled := 1, timer := some 0 })).coalescingExpires 1).intcause = 0x02#6 := by decide
theorem test_false_start : (((up.setLine 1 { ln with inReception := true }).falseStartTaken 1).line 1).inReception = false := by decide

/-! ## For each statement with hypotheses, a concrete state and operands that meet them -/

/-- The table with one station in it keeps the law of keys. -/
theorem keysOk_one {s : State} {x : Station} (h : s.stations = vput State.reset.stations 0 (some x)) (h1 : 1 ≤ x.addr) (h2 : x.addr ≤ 126) :
    s.KeysOk := by
  have key : ∀ e, ∀ y ∈ s.station e, e = 0 ∧ y = x := fun e y hy => by
    rw [State.station, h, vget_vput] at hy
    split at hy
    · rename_i he
      exact ⟨he, by simpa using hy.symm⟩
    · simp [State.reset] at hy
  refine ⟨fun e y hy => by rw [(key e y hy).2]; exact ⟨h1, h2⟩, fun e f y hy z hz _ _ => ?_⟩
  rw [(key e y hy).1, (key f z hz).1]

/-- The tests of R153 can be decided. -/
abbrev badParamDec (c : AdminCmd) : Decidable (BadParam c) := by
  cases c <;> unfold BadParam <;> try unfold Misplaced
  all_goals first | infer_instance | (unfold BadFields; infer_instance)

abbrev notFoundDec (s : State) (c : AdminCmd) : Decidable (NotFound s c) := by
  cases c <;> unfold NotFound <;> first
    | infer_instance | (unfold CRingAbsent; infer_instance) | (unfold RingNotFound; infer_instance) | (unfold NoEntry; infer_instance)

abbrev wrongStateDec (s : State) (c : AdminCmd) : Decidable (WrongState s c) := by
  cases c <;> unfold WrongState <;> first
    | infer_instance | (unfold Unconfigured; infer_instance) | (unfold CannotScan; infer_instance)

abbrev inUseDec (s : State) (c : AdminCmd) : Decidable (InUse s c) := by
  cases c <;> unfold InUse <;> first | infer_instance | (unfold NoEntry; infer_instance)

abbrev passesDec (s : State) (c : AdminCmd) : Decidable (Passes s c) :=
  haveI := badParamDec c
  haveI := notFoundDec s c
  haveI := wrongStateDec s c
  haveI := inUseDec s c
  haveI : Decidable (NoRoom s c) := by cases c <;> unfold NoRoom <;> infer_instance
  haveI : Decidable (AdminReads s) := by unfold AdminReads; infer_instance
  by unfold Passes; infer_instance

theorem holds {p : Prop} (d : Decidable p) (h : @decide p d = true) : p := @of_decide_eq_true p d h

theorem fails {p : Prop} (d : Decidable p) (h : @decide p d = false) : ¬ p := @of_decide_eq_false p d h

theorem passes_of {s : State} {c : AdminCmd} (h : @decide (Passes s c) (passesDec s c) = true) : Passes s c :=
  holds (passesDec s c) h

theorem witness_StepRunsTheCommandAtTheFront : State.reset.pending = [] := by decide

theorem witness_UnitsOwnActsKeepTheRest : State.reset.working = false := by decide

/-- Line 1 in IDLE with a READY slot. -/
def readyLine : Line := { ln with slots := vput ln.slots 0 (some (slotIn .ready)) }

/-- The part with a scanned station due and the Scanner HOLDING. -/
def due : State :=
  (with1 { ln with scanner := ⟨.holding, some 1, none, none, false⟩ }).setStation 0 (some { st with scanPeriod := 5 })

theorem witness_ArbiterOrder :
    (with1 readyLine).arbiterChoice 1 = some (.slot 1 0) ∧ due.arbiterChoice 1 = some (.poll 0) ∧ up.arbiterChoice 1 = none := by
  decide

theorem witness_ResetsGiveEveryBlockItsResetValue : ¬ BeingWritten up 0 := by
  unfold BeingWritten InRange
  decide

theorem witness_EnableByDeviceState :
    (State.reset.device = .off ∧ State.reset.bootAddr.toNat % 32 = 0)
    ∧ (({ State.reset with bootAddr := 1 } : State).bootAddr.toNat % 32 ≠ 0)
    ∧ up.device = .running
    ∧ (({ State.reset with device := .loading, enable := true } : State).device = .loading)
    ∧ (({ up with device := .disabling } : State).device = .disabling)
    ∧ ({ State.reset with device := .faulted } : State).device = .faulted := by decide

/-- The part with a LINE_STOP waiting in the Admin Processor. -/
def stopWaits : State := { up with admin := ⟨.waiting, some ⟨encodeAdmin 7 (.lineStop 1 0), 0, [], some (.lineStop 1), none⟩, false, none⟩ }

theorem up_laws : up.LinesOk ∧ up.AttemptsOk ∧ up.ScannersOk := by
  unfold State.LinesOk State.AttemptsOk State.ScannersOk Line.Ok Scanner.Ok
  decide

theorem witness_DisableEndsTheWorkInHand :
    (up.device = .running ∧ up.enable = true ∧ up.LinesOk ∧ up.AttemptsOk ∧ up.ScannersOk)
    ∧ stopWaits.device = .running ∧ stopWaits.enable = true ∧ stopWaits.LinesOk ∧ stopWaits.AttemptsOk ∧ stopWaits.ScannersOk
    ∧ stopWaits.admin.phase = .waiting ∧ stopWaits.admin.command ≠ none :=
  ⟨⟨rfl, rfl, up_laws⟩, rfl, rfl, up_laws.1, up_laws.2.1, up_laws.2.2, rfl, by decide⟩

theorem witness_RegisterWriteIsItsCommand : (4 : Word).getLsbD 2 = true ∧ (3 : Word).getLsbD 2 = false := by decide

theorem witness_PostIsJudgedInOrder :
    State.reset.device ≠ .running
    ∧ (up.device = .running ∧ 16 < (17 : Byte).toNat ∧ (1 : Byte).toNat = (1 : RingId).val)
    ∧ (∀ x ∈ (up.modRing 1 fun r => { r with state := .draining }).ring 1, x.state = .draining)
    ∧ (∃ x ∈ up.ring 1, x.state ≠ .draining ∧ 2 ^ x.sizeCode ≤ (8 : Half).toNat ∧ (7 : Half).toNat < 2 ^ x.sizeCode)
    ∧ ({ up with pool := none } : State).pool = none
    ∧ ∃ p ∈ up.pool, 2 ^ p.sizeCode ≤ (4 : Half).toNat ∧ (3 : Half).toNat < 2 ^ p.sizeCode := by decide

theorem witness_ReleaseGivesPlacesBack :
    State.reset.device ≠ .running
    ∧ (up.device = .running ∧ 3 < (4 : Byte).toNat ∧ (1 : Byte).toNat = (1 : CRingId).val ∧ up.cring 2 = none)
    ∧ (∃ c ∈ up.cring 1, 2 ^ c.sizeCode ≤ (8 : Half).toNat
        ∧ c.written < ((1 : Half).toNat + 2 ^ c.sizeCode - c.head) % 2 ^ c.sizeCode)
    ∧ ∃ c ∈ (up.setCRing 1 (some { cr with written := 2, tail := 2 })).cring 1, (2 : Half).toNat < 2 ^ c.sizeCode
        ∧ ((2 : Half).toNat + 2 ^ c.sizeCode - c.head) % 2 ^ c.sizeCode ≤ c.written := by decide

theorem witness_AdminCommandsAreJudgedInOrder :
    AdminReads asks
    ∧ BadParam (.poolCreate 1 0)
    ∧ (¬ BadParam (.cringPolicy 3 1 true 0) ∧ NotFound asks (.cringPolicy 3 1 true 0))
    ∧ (¬ BadParam (.ringResume 1 0xFF) ∧ ¬ NotFound asks (.ringResume 1 0xFF) ∧ WrongState asks (.ringResume 1 0xFF))
    ∧ (¬ BadParam (.poolCreate 2 0x70000) ∧ ¬ NotFound asks (.poolCreate 2 0x70000) ∧ ¬ WrongState asks (.poolCreate 2 0x70000)
        ∧ InUse asks (.poolCreate 2 0x70000)) := by
  exact ⟨⟨rfl, rfl⟩, holds (badParamDec _) (by decide), ⟨fails (badParamDec _) (by decide), holds (notFoundDec _ _) (by decide)⟩,
    ⟨fails (badParamDec _) (by decide), fails (notFoundDec _ _) (by decide), holds (wrongStateDec _ _) (by decide)⟩,
    fails (badParamDec _) (by decide), fails (notFoundDec _ _) (by decide), fails (wrongStateDec _ _) (by decide),
    holds (inUseDec _ _) (by decide)⟩

/-- The table with every entry in use. -/
def full : State := { asks with stations := Vector.replicate 128 (some st) }

theorem witness_AdminCommandsAreJudgedInOrder_noRoom :
    let c := AdminCmd.stationAttach 1 6 0
    AdminReads full ∧ ¬ BadParam c ∧ ¬ NotFound full c ∧ ¬ WrongState full c ∧ ¬ InUse full c ∧ NoRoom full c := by
  have hs : ∀ e, full.station e = some st := fun e => vget_replicate _ _
  refine ⟨⟨rfl, rfl⟩, by unfold BadParam; decide, id, ?_, ?_, fun e h => ?_⟩
  · exact fun h => h.1 rfl
  · exact fun h => h fun e x hx => by rw [hs e] at hx; cases hx; decide
  · rw [hs e] at h; cases h

theorem witness_AdminRecordsAreTakenByTheirBytes :
    AdminReads asks ∧ (List.replicate 32 (0 : Byte)).length = 32 ∧ (∀ tag c, List.replicate 32 (0 : Byte) ≠ encodeAdmin tag c)
    ∧ (let s : State := { asks with device := .disabling }; s.device = .disabling ∧ s.admin.phase = .reading) := by
  refine ⟨⟨rfl, rfl⟩, by decide, fun tag c h => ?_, by decide⟩
  have h2 := congrArg (fun bs => bs[2]?) h
  cases c <;> simp [encodeAdmin, halfBytes, AdminCmd.code] at h2

/-- `asks` with ring 1 PAUSED. -/
def asksPaused : State := asks.modRing 1 fun r => { r with state := .paused }

theorem witness_RingCommandsTakeEffect :
    Passes asks (.ringCreate (BitVec.ofNat 8 (3 : RingId)) 5 (BitVec.ofNat 8 (1 : LineId)) (BitVec.ofNat 8 (2 : ClassId))
      (BitVec.ofNat 8 (1 : CRingId)) 0x40000)
    ∧ (asks.ring 1).isSome = true ∧ Passes asks (.ringPause (BitVec.ofNat 8 (1 : RingId)))
    ∧ (asksPaused.ring 1).isSome = true ∧ Passes asksPaused (.ringResume (BitVec.ofNat 8 (1 : RingId)) 0xFF)
    ∧ Passes asksPaused (.ringResume (BitVec.ofNat 8 (1 : RingId)) (BitVec.ofNat 8 (3 : ClassId))) :=
  ⟨passes_of (by decide), by decide, passes_of (by decide), by decide, passes_of (by decide), passes_of (by decide)⟩

/-- Ring 1 with a record read in progress in `asks`. -/
def asksReading : State :=
  (asks.modRing 1 fun r => { r with tail := 2 }).setLine 1 { ln with read := some ⟨1, 0, 0x40000, []⟩ }

theorem witness_RingDeleteDrainsTheRing :
    (Passes asks (.ringDelete (BitVec.ofNat 8 (1 : RingId)) 0) ∧ Passes asks (.ringDelete (BitVec.ofNat 8 (1 : RingId)) 1)
      ∧ (∃ x ∈ asks.ring 1, x.head < 2 ^ x.sizeCode ∧ x.tail < 2 ^ x.sizeCode ∧ some (1 : LineId) = x.line)
      ∧ ¬ ∃ l, ∃ rd ∈ (asks.line l).read, rd.ring = 1)
    ∧ Passes asksReading (.ringDelete (BitVec.ofNat 8 (1 : RingId)) 1)
    ∧ (∃ x ∈ asksReading.ring 1, x.head < 2 ^ x.sizeCode ∧ x.tail < 2 ^ x.sizeCode ∧ x.head ≠ x.tail)
    ∧ ∃ l, ∃ rd ∈ (asksReading.line l).read, rd.ring = 1 :=
  ⟨⟨passes_of (by decide), passes_of (by decide), by decide, by decide⟩, passes_of (by decide), by decide, by decide⟩

theorem witness_CompletionRingAndPoolCommandsTakeEffect :
    Passes asks (.cringCreate (BitVec.ofNat 8 (2 : CRingId)) 3 1 true 0 0x30000)
    ∧ Passes (asks.setCRing 2 (some cr)) (.cringDelete (BitVec.ofNat 8 (2 : CRingId)))
    ∧ Passes { asks with pool := none } (.poolCreate 2 0x70000)
    ∧ Passes asks .poolDelete :=
  ⟨passes_of (by decide), passes_of (by decide), passes_of (by decide), passes_of (by decide)⟩

/-- `asks` at device time 5 µs, C1 with an unsignalled count and a timer. -/
def policed (n : Nat) (timer : Option Nat) : State :=
  { asks with deviceTime := 5, crings := vput asks.crings 1 (some { cr with unsignalled := n, timer := timer }) }

theorem witness_PolicyChangeTakesTheStepsInOrder :
    (Passes (policed 3 none) (.cringPolicy (BitVec.ofNat 8 (1 : CRingId)) 3 true 0) ∧ (policed 3 none).cring 1 ≠ none)
    ∧ Passes (policed 2 (some 0)) (.cringPolicy (BitVec.ofNat 8 (1 : CRingId)) 3 true 0)
    ∧ Passes (policed 2 (some 0)) (.cringPolicy (BitVec.ofNat 8 (1 : CRingId)) 3 true 5)
    ∧ (5 : Half).toNat ≤ (policed 2 (some 0)).nowUs - 0
    ∧ Passes (policed 2 none) (.cringPolicy (BitVec.ofNat 8 (1 : CRingId)) 3 true 1)
    ∧ Passes (policed 2 (some 0)) (.cringPolicy (BitVec.ofNat 8 (1 : CRingId)) 3 true 6)
    ∧ (policed 2 (some 0)).nowUs - 0 < (6 : Half).toNat :=
  ⟨⟨passes_of (by decide), by decide⟩, passes_of (by decide), passes_of (by decide), by decide, passes_of (by decide),
    passes_of (by decide), by decide⟩

/-- Fields of LINE_CONFIG that pass: async, 9600, even parity, every other field written out, notice ring C1. -/
def fields : LineFields := ⟨0, 3, 1, 1, 2, 0, 40, 3, 2, 2, 4, 10, 16, 1, 1000⟩

theorem witness_LineConfigTakesTheWholeRecord :
    (Passes asks (.lineConfig (BitVec.ofNat 8 (2 : LineId)) fields) ∧ fieldOf fields 0 fields.parity.toNat 0 = 1
      ∧ noticeField fields = (1 : CRingId).val)
    ∧ (Passes asks (.lineConfig (BitVec.ofNat 8 (2 : LineId)) { fields with parity := 2 })
      ∧ fieldOf { fields with parity := 2 } 0 2 0 = 2)
    ∧ (Passes asks (.lineConfig (BitVec.ofNat 8 (2 : LineId)) { fields with mask := 0xFFF })
      ∧ fieldOf { fields with mask := 0xFFF } 0 fields.parity.toNat 0 = 0 ∧ noticeField { fields with mask := 0xFFF } = 4) :=
  ⟨⟨passes_of (by decide), by decide, by decide⟩, ⟨passes_of (by decide), by decide⟩, passes_of (by decide), by decide, by decide⟩

/-- `asks` with line 2 configured and in the given run state. -/
def line2 (r : RunState) : State := asks.setLine 2 { Line.reset .mark with config := some cfg, run := r }

theorem witness_LineStartEntersStarting :
    (((line2 .stopped).line 2).config = some cfg ∧ Passes (line2 .stopped) (.lineStart (BitVec.ofNat 8 (2 : LineId)))
      ∧ ((line2 .stopped).line 2).run = .stopped)
    ∧ Passes (line2 .faulted) (.lineStart (BitVec.ofNat 8 (2 : LineId))) ∧ ((line2 .faulted).line 2).run = .faulted :=
  ⟨⟨by decide, passes_of (by decide), by decide⟩, passes_of (by decide), by decide⟩

theorem witness_LineStopByRunState :
    (Passes (line2 .stopped) (.lineStop (BitVec.ofNat 8 (2 : LineId)) 0) ∧ ((line2 .stopped).line 2).run = .stopped)
    ∧ (Passes (line2 .faulted) (.lineStop (BitVec.ofNat 8 (2 : LineId)) 1) ∧ ((line2 .faulted).line 2).run = .faulted)
    ∧ (Passes asks (.lineStop (BitVec.ofNat 8 (1 : LineId)) 0) ∧ Passes asks (.lineStop (BitVec.ofNat 8 (1 : LineId)) 1)
      ∧ (asks.line 1).run = .running ∧ (asks.line 1).scanner.Ok) :=
  ⟨⟨passes_of (by decide), by decide⟩, ⟨passes_of (by decide), by decide⟩, passes_of (by decide), passes_of (by decide), by decide,
    up_laws.2.2 1⟩

theorem witness_LineStopByRunState_laws : asks.LinesOk ∧ asks.AttemptsOk ∧ asks.ScannersOk := up_laws

theorem witness_StationAttachAndScan :
    (Passes asks (.stationAttach (BitVec.ofNat 8 (1 : LineId)) 6 0) ∧ Passes asks (.stationScan (BitVec.ofNat 8 (1 : LineId)) 5 5))
    ∧ asks.KeysOk ∧ ∃ x ∈ asks.station 0, x.line = 1 ∧ x.addr = (5 : Byte).toNat :=
  ⟨⟨passes_of (by decide), passes_of (by decide)⟩, keysOk_one rfl (by decide) (by decide), by decide⟩

theorem witness_StationDetachFreesOrWaits :
    (Passes asks (.stationDetach (BitVec.ofNat 8 (1 : LineId)) 5) ∧ ¬ ∃ a ∈ (asks.line 1).attempt, a.addr = (5 : Byte).toNat)
    ∧ (Passes (asks.setLine 1 (inPhase .lead)) (.stationDetach (BitVec.ofNat 8 (1 : LineId)) 5)
      ∧ ∃ a ∈ ((asks.setLine 1 (inPhase .lead)).line 1).attempt, a.addr = (5 : Byte).toNat)
    ∧ asks.KeysOk ∧ (asks.setLine 1 (inPhase .lead)).KeysOk ∧ ∃ x ∈ asks.station 0, x.line = 1 ∧ x.addr = (5 : Byte).toNat :=
  ⟨⟨passes_of (by decide), by decide⟩, ⟨passes_of (by decide), by decide⟩, keysOk_one rfl (by decide) (by decide),
    keysOk_one rfl (by decide) (by decide), by decide⟩

theorem witness_QueriesComposeTheirReports :
    asks.station 0 = some st ∧ Passes asks (.stationQuery (BitVec.ofNat 8 (0 : EntryId)) true 0x80000)
    ∧ Passes asks (.lineQuery (BitVec.ofNat 8 (1 : LineId)) 2 true 0xFFFFFFFFFFFFFFE1)
    ∧ (0x80000 : Addr).toNat + 32 ≤ 2 ^ 64 ∧ ¬ (0xFFFFFFFFFFFFFFE1 : Addr).toNat + 32 ≤ 2 ^ 64 :=
  ⟨by decide, passes_of (by decide), passes_of (by decide), by simp, by simp⟩

theorem witness_ReportsCarryTheFields : (Line.reset .mark).config = none ∧ ln.config = some cfg := by decide

theorem witness_BootstrapReadStartsOrFaultsThePart :
    ({ State.reset with device := .loading } : State).device = .loading ∧ BootValid bootBytes ∧ ¬ BootValid [] := by
  unfold BootValid Misplaced
  decide

/-- Line 1 with a record read of ring 1 in progress. -/
def readingLine (events : List ReadEvent) : Line := { ln with read := some ⟨1, 0, 0x40000, events⟩ }

theorem witness_StructuralBusErrorsFaultThePart :
    (Works (with1 (readingLine [])) ∧ ((with1 (readingLine [])).line 1).read ≠ none)
    ∧ (Works (delivers none) ∧ ((delivers none).line 1).scanner.state = .delivering
      ∧ ∃ d ∈ ((delivers none).line 1).scanner.delivery, d.buffer = none)
    ∧ Works noticing ∧ ∃ c ∈ noticing.cring 1, c.write ≠ none := by
  unfold Works
  decide

/-- The part with a record read of ring 1 in progress, during which the events happen. -/
def reads (events : List ReadEvent) : State := with1 (readingLine events)

theorem reads_keysOk (events : List ReadEvent) : (reads events).KeysOk := keysOk_one rfl (by decide) (by decide)

abbrev formRightDec (r : SubRec) : Decidable (FormRight r) := by unfold FormRight; infer_instance

/-- The FETCH's fields with another kind and another address. -/
def subOf (kind addr flags outLen : Byte) : SubRec :=
  { decodeSub fetchBytes with
    kind := kind, addr := addr, flags := flags, outLen := outLen
    inLimit := if kind = 1 ∨ kind = 3 then 2 else 0, paramCount := if kind = 2 ∨ kind = 4 then 1 else 0 }

theorem witness_RecordReadJudgesTheRecord :
    (((reads []).line 1).read = some ⟨1, 0, 0x40000, []⟩ ∧ Works (reads []) ∧ (reads []).KeysOk ∧ fetchBytes.length = 32
      ∧ (reads []).ring 1 ≠ none ∧ ∃ i, (reads []).slot 1 i = none)
    ∧ (∀ r, DecidedBy r [.decided .aborted] (some .aborted)) ∧ DecidedBy (decodeSub fetchBytes) [.detached 5] (some .detached)
    ∧ (∀ r, DecidedBy r [] none) ∧ ¬ FormRight (subOf 9 5 0 0) ∧ FormRight (subOf 1 5 0 0) := by
  refine ⟨⟨by decide, Or.inl rfl, reads_keysOk _, by decide, by decide, by decide⟩, fun _ => rfl, ?_, fun _ => rfl, ?_, ?_⟩
  · exact ⟨fun _ => rfl, fun h => absurd (by unfold FormRight; decide) h⟩
  · unfold FormRight
    decide
  · unfold FormRight
    decide

theorem witness_RecordReadJudgesTheRecord_stations :
    (∀ e, ∀ x ∈ (reads []).station e, ¬ (x.line = 1 ∧ x.addr = (6 : Byte).toNat))
    ∧ (∃ x ∈ ((reads []).setStation 0 (some { st with state := .detaching })).station 0, x.state = .detaching)
    ∧ ∃ x ∈ ((reads []).setStation 0 (some { st with state := .offline })).station 0, x.state = .offline
        ∧ (subOf 1 5 0 0).force = false := by
  refine ⟨fun e x hx => ?_, by decide, by decide⟩
  have h : x = st := by
    rw [State.station, show (reads []).stations = vput State.reset.stations 0 (some st) from rfl, vget_vput] at hx
    split at hx
    · simpa using hx.symm
    · simp [State.reset] at hx
  subst h
  decide

theorem witness_RecordReadPlacesTheRecord :
    (FormRight (subOf 1 5 0 0) ∧ FormRight (subOf 1 5 1 0) ∧ FormRight (subOf 2 5 0 3) ∧ FormRight (subOf 2 5 1 0)
      ∧ FormRight (subOf 4 0 0 3))
    ∧ (∃ e, ∃ x ∈ (reads []).station e, x.line = 1 ∧ x.addr = (subOf 1 5 0 0).addr.toNat ∧ x.state ≠ .detaching
      ∧ (x.state = .offline → (subOf 1 5 0 0).force = true))
    ∧ (subOf 2 5 0 3).buf.toNat + 3 ≤ 2 ^ 64 ∧ 2 ^ 64 < (0xFFFFFFFFFFFFFFFE : Addr).toNat + 3 := by
  exact ⟨⟨holds (formRightDec _) (by decide), holds (formRightDec _) (by decide), holds (formRightDec _) (by decide), holds (formRightDec _) (by decide), holds (formRightDec _) (by decide)⟩,
    by decide, by decide, by simp⟩

/-- Slot 0 of line 1 in LOADING for the STORE of three bytes. -/
def loadingSlot (d : Option Status) : Slot := { slotIn .loading with record := storeBytes, decided := d }

theorem witness_PayloadReadMovesTheSlotOn :
    (let s := with1 { ln with slots := vput ln.slots 0 (some (loadingSlot none)) };
      s.slot 1 0 = some (loadingSlot none) ∧ Works s)
    ∧ (loadingSlot none).state = .loading ∧ (loadingSlot none).outcome = none ∧ (loadingSlot none).decided = none
    ∧ [1, 2, 3].length = (loadingSlot none).sub.outLen.toNat ∧ (loadingSlot none).sub.fence = true
    ∧ ({ loadingSlot none with record := fetchBytes } : Slot).sub.fence = false ∧ (loadingSlot (some .aborted)).decided = some .aborted := by
  unfold Works
  decide

theorem witness_DataWriteEndsTheStore :
    let s := with1 { ln with slots := vput ln.slots 0 (some { slotIn .storing with response := [7, 8, 9] }) }
    Works s ∧ ∃ x ∈ s.slot 1 0, x.state = .storing := by
  unfold Works
  decide

theorem witness_DeliveryReadsItsBufferAndWritesIt :
    (Works (delivers none) ∧ ((delivers none).line 1).scanner.reservation = some 1 ∧ ((delivers none).line 1).scanner.state = .delivering
      ∧ ((delivers none).line 1).scanner.delivery = some ⟨0, 5, 0, 0x70000, [7], none, none, none⟩)
    ∧ ([0, 0, 9, 0, 0, 0, 0, 0] : List Byte).length = 8
    ∧ Works (delivers (some 0x90000)) ∧ ∃ d ∈ ((delivers (some 0x90000)).line 1).scanner.delivery, d.buffer = some 0x90000 ∧ d.status = none := by
  unfold Works
  decide

theorem witness_QueriesComposeTheirReports_write :
    Works reporting ∧ reporting.admin.phase = .reporting ∧ reporting.admin.command ≠ none := by
  unfold Works
  decide

/-- C1 with a write in progress of the writer. -/
def writing (w : Writer) : State :=
  noticing.setCRing 1 (some { cr with reserved := 1, write := some ⟨w, 0, lineNoticeRecord 1 ln, (lineNoticeRecord 1 ln).bytes true⟩ })

theorem witness_CompletionWriteEndsInOneStep :
    (∀ w, Works (writing w) ∧ ∃ c ∈ (writing w).cring 1, ∃ x ∈ c.write, x.writer = w) ∧ (with1 readyLine).slot 1 0 ≠ none := by
  refine ⟨fun w => ⟨Or.inl rfl, ?_⟩, by decide⟩
  exact ⟨_, State.cring_setCRing_same _ _ _, _, rfl, rfl⟩

theorem witness_QuietTimersEndInRunningAndIdle :
    (Works (up.setLine 1 (starting cfg)) ∧ ((up.setLine 1 (starting cfg)).line 1).config = some cfg ∧ cfg.mode = .async
      ∧ (starting cfg).run = .starting ∧ (starting cfg).timers.startQuiet = some 0)
    ∧ (Works (up.setLine 1 (starting cfgClocked)) ∧ cfgClocked.mode = .clocked ∧ (starting cfgClocked).timers.settle = some 0)
    ∧ Works (up.setLine 1 settling) ∧ settling.config = some cfg ∧ settling.timers.settle = some 0 ∧ settling.phase = some .settle := by
  unfold Works
  decide

/-- Line 1 in an exchange with its stuck timer from 0. -/
def stuckLine : Line := { inPhase .awaiting with timers := { ln.timers with stuck := some 0 } }

theorem stuck_laws : (with1 stuckLine).LinesOk ∧ (with1 stuckLine).AttemptsOk ∧ (with1 stuckLine).ScannersOk := by
  unfold State.LinesOk State.AttemptsOk State.ScannersOk Line.Ok Scanner.Ok
  decide

theorem witness_LineFaultTimersFaultTheLine :
    (Works (with1 stuckLine) ∧ FaultTimer (with1 stuckLine) 1 cfg (.stuckLimit 1) .stuck (0 + charTimes cfg 64)
      ∧ (with1 stuckLine).LinesOk ∧ (with1 stuckLine).AttemptsOk ∧ (with1 stuckLine).ScannersOk ∧ (with1 stuckLine).KeysOk
      ∧ (with1 stuckLine).device = .running)
    ∧ FaultTimer (up.setLine 1 (starting cfg)) 1 cfg (.startLimit 1) .notQuiet (0 + 200000)
    ∧ FaultTimer (up.setLine 1 settling) 1 cfg (.settleLimit 1) .notQuiet (0 + charTimes cfg 256)
    ∧ (let s := { with1 stuckLine with device := .disabling }
      Works s ∧ FaultTimer s 1 cfg (.stuckLimit 1) .stuck (0 + charTimes cfg 64) ∧ s.LinesOk ∧ s.device = .disabling) := by
  refine ⟨⟨Or.inl rfl, ?_, stuck_laws.1, stuck_laws.2.1, stuck_laws.2.2, keysOk_one rfl (by decide) (by decide), rfl⟩, ?_, ?_,
    Or.inr rfl, ?_, stuck_laws.1, rfl⟩
  · exact ⟨by decide, rfl, Or.inr (Or.inr ⟨rfl, rfl, by decide, 0, by decide, rfl⟩)⟩
  · exact ⟨by decide, rfl, Or.inl ⟨rfl, rfl, by decide, 0, by decide, rfl⟩⟩
  · exact ⟨by decide, rfl, Or.inr (Or.inl ⟨rfl, rfl, by decide, 0, by decide, rfl⟩)⟩
  · exact ⟨by decide, rfl, Or.inr (Or.inr ⟨rfl, rfl, by decide, 0, by decide, rfl⟩)⟩

/-- Line 1 in LEAD with its lead timer from 0. -/
def leading : Line := { inPhase .lead with timers := { ln.timers with lead := some 0 } }

theorem witness_SendingGoesOnCharacterByCharacter :
    (Works (with1 leading) ∧ leading.config = some cfg ∧ leading.timers.lead = some 0 ∧ leading.attempt = some att
      ∧ leading.phase = some .lead ∧ leading.sentPos = 0)
    ∧ (let x := { inPhase .sending with echoes := 1 }
      Works (with1 x) ∧ x.phase = some .sending ∧ x.attempt = some att ∧ x.abortStop = false ∧ x.conflict = false
        ∧ x.sentPos + 1 ≤ x.echoes ∧ x.sentPos + 1 < att.frame.length)
    ∧ (let x := { inPhase .sending with echoes := 5, sentPos := 4 }
      x.sentPos + 1 ≤ x.echoes ∧ att.frame.length ≤ x.sentPos + 1 ∧ att.addr ≠ 0)
    ∧ ({ inPhase .sending with abortStop := true } : Line).abortStop = true := by
  unfold Works
  decide

theorem witness_SendingGoesOnCharacterByCharacter_bits :
    cfgClocked.mode = .clocked ∧ cfg.mode = .async ∧ cfg.parity = .none ∧ ({ cfg with parity := .even } : LineConfig).parity = .even
      ∧ ({ cfg with parity := .odd } : LineConfig).parity = .odd := by decide

/-- The receive record with the parts that have arrived. -/
def rxOf (ctrl len : Option Byte) (payload check : List Byte) : RxRecord := ⟨some 133, ctrl, len, payload, check⟩

/-- Line 1 in RECEIVING with those parts. -/
def receiving (rx : RxRecord) : Line := { inPhase .receiving with rx := rx, timers := { ln.timers with gap := some 0 } }

/-- A character with the mark bit clear. -/
def plain (v : Byte) : RawChar := ⟨v, false, false, true, true⟩

theorem witness_AsyncCharacterGoesOn :
    (ln.config = some cfg ∧ cfg.mode = .async ∧ Works (up.setLine 1 (starting cfg)) ∧ (starting cfg).run = .starting
      ∧ (starting cfg).phase = none)
    ∧ (ln.run = .running ∧ ln.phase = some .idle ∧ settling.phase = some .settle)
    ∧ (let x := inPhase .sending
      x.attempt = some att ∧ x.conflict = false ∧ x.echoes ≤ x.sentPos ∧ (reportOf cfg (marked 5)).value = byteAt att.frame x.echoes
        ∧ (reportOf cfg (marked 5)).mark = true ∧ x.echoes = 0 ∧ (reportOf cfg (marked 5)).parityError = false
        ∧ (reportOf cfg (marked 5)).framingError = false ∧ (reportOf cfg (marked 6)).value ≠ byteAt att.frame x.echoes)
    ∧ (let x := inPhase .awaiting
      x.phase = some .awaiting ∧ x.timeoutHeld = false ∧ (reportOf cfg (plain 1)).mark = false
        ∧ (reportOf cfg (marked 133)).value = BitVec.ofNat 8 (128 + att.addr))
    ∧ (reportOf cfg (plain 2)).framingError = false ∧ (reportOf cfg (plain 2)).parityError = false
    ∧ (reportOf cfg (plain 2)).value.toNat ≤ 64
    ∧ (receiving (rxOf none none [] [])).rx.ctrl = none ∧ (receiving (rxOf (some 2) none [] [])).rx.len = none
    ∧ (rxOf (some 2) (some 1) [] []).payload.length < (1 : Byte).toNat
    ∧ (1 : Byte).toNat ≤ (rxOf (some 2) (some 1) [7] []).payload.length := by
  unfold Works
  decide

/-- Line 1 clocked, in a phase of the exchange. -/
def clockedIn (p : Phase) : Line := { inPhase p with config := some cfgClocked }

theorem witness_ClockedCharacterGoesOn :
    (Works (with1 (clockedIn .idle)) ∧ (clockedIn .idle).phase ≠ some .awaiting ∧ (clockedIn .idle).phase ≠ some .receiving)
    ∧ ((clockedIn .awaiting).attempt = some att ∧ (clockedIn .awaiting).fillers < cfgClocked.respTimeout
      ∧ (plain 0xFF).data = 0xFF ∧ (plain 133).data = BitVec.ofNat 8 (128 + att.addr) ∧ (plain 133).data ≠ 0xFF)
    ∧ (clockedIn .receiving).phase = some .receiving ∧ (plain 2).data.toNat ≤ 64 ∧ (rxOf none none [] []).ctrl = none
    ∧ (rxOf (some 2) none [] []).len = none ∧ (rxOf (some 2) (some 1) [] []).payload.length < (1 : Byte).toNat := by
  unfold Works
  decide

theorem witness_ReceiverEventsOfRxd :
    (Works up ∧ (up.line 1).config = some cfg ∧ cfg.mode = .async ∧ (up.line 1).run = .running ∧ (up.line 1).pins.rxd = .mark)
    ∧ ({ ln with pins := .quiet .space } : Line).pins.rxd = .space
    ∧ (({ ln with inReception := true } : Line).inReception = true ∧ ({ ln with inReception := true } : Line).timeoutHeld = false)
    ∧ (let x := { inPhase .awaiting with inReception := true, timers := { ln.timers with response := some 0 } }
      x.timers.response = some 0 ∧ x.phase = some .awaiting ∧ x.inReception = true ∧ Works (with1 x)) := by
  unfold Works
  decide

/-- The common hypotheses of the statements about the end of slot 0's attempt to station 5 on line 1. -/
def Attempted (s : State) (g : LineConfig) : Prop :=
  Works s ∧ (s.line 1).config = some g ∧ (s.line 1).run = .running ∧ (s.line 1).attempt = some att ∧ att.requester = .slot 0
  ∧ s.slot 1 0 = some (slotIn .active) ∧ (slotIn .active).outcome = none ∧ (slotIn .active).addr = att.addr
  ∧ s.station 0 = some st ∧ st.line = 1 ∧ st.addr = att.addr ∧ st.state ≠ .detaching ∧ (slotIn .active).lastAttempt = false

/-- The line waits for the response; its response timer runs from 0. -/
def awaiting (g : LineConfig) : Line := { inPhase .awaiting with config := some g, timers := { ln.timers with response := some 0 } }

/-- The attempt with a timeout held while a character is in reception. -/
def held : Line := { awaiting cfg with inReception := true, timeoutHeld := true }

/-- The clocked attempt whose hunt has run out. -/
def hunted : Line := { awaiting cfgClocked with fillers := 40 }

/-- The complete response of station 5 with a control character and payload, its CHECK from `check`. -/
def response (ctrl : Byte) (data check : List Byte) : RxRecord :=
  ⟨some 133, some ctrl, some (BitVec.ofNat 8 data.length), data, check⟩

/-- The CHECK characters of that response. -/
def checkOf (ctrl : Byte) (data : List Byte) : List Byte := checkChars ([133, ctrl, BitVec.ofNat 8 data.length] ++ data)

/-- The line one character before the end of that response. -/
def ending (ctrl : Byte) (data : List Byte) : Line := receiving (response ctrl data ((checkOf ctrl data).take 1))

/-- The last character of that response. -/
def lastChar (ctrl : Byte) (data : List Byte) : RawChar := plain (byteAt (checkOf ctrl data) 1)

theorem frame_ends (ctrl : Byte) (data : List Byte) (h : (BitVec.ofNat 8 data.length).toNat = data.length) :
    FrameEnds (with1 (ending ctrl data)) 1 cfg (response ctrl data (checkOf ctrl data))
      (.characterReceived 1 (lastChar ctrl data)) := by
  have hline : (with1 (ending ctrl data)).line 1 = ending ctrl data := State.line_setLine_same _ _ _
  refine ⟨_, rfl, ?_, fun _ => ⟨rfl, rfl, rfl⟩⟩
  rw [hline]
  have hc : ∃ hi lo, checkOf ctrl data = [hi, lo] := ⟨_, _, rfl⟩
  obtain ⟨hi, lo, hc⟩ := hc
  refine ⟨rfl, by simp [ending, receiving, response], ⟨_, rfl, le_of_eq h⟩, ⟨hi, ?_⟩, ?_⟩
  · simp [ending, receiving, response, hc]
  · simp [ending, receiving, response, lastChar, plain, hc, byteAt]

theorem witness_FailedAttemptOfASlot :
    (Attempted (with1 (awaiting cfg)) cfg ∧ Attempted (with1 hunted) cfgClocked ∧ Attempted (with1 held) cfg
      ∧ Attempted (with1 (receiving (rxOf (some 2) none [] []))) cfg ∧ Attempted (with1 (ending 2 [7])) cfg)
    ∧ (∀ x, (with1 x).KeysOk)
    ∧ Fails (with1 (awaiting cfg)) 1 cfg att (.responseTimeout 1) .timeout (0 + charTimes cfg 40) none
    ∧ Fails (with1 hunted) 1 cfgClocked att (.responseTimeout 1) .timeout (with1 hunted).nowUs none
    ∧ Fails (with1 (receiving (rxOf (some 2) none [] []))) 1 cfg att (.gapLimit 1) .truncated (0 + charTimes cfg 3) none
    ∧ Fails (with1 held) 1 cfg att (.falseStart 1) .timeout (with1 held).nowUs none := by
  refine ⟨?_, fun x => keysOk_one rfl (by decide) (by decide), ?_, ?_, ?_, ?_⟩
  · unfold Attempted Works
    exact ⟨by decide, by decide, by decide, by decide, by decide⟩
  · exact Or.inl ⟨rfl, rfl, rfl, by decide, Or.inl ⟨rfl, by decide, 0, by decide, rfl⟩⟩
  · exact Or.inl ⟨rfl, rfl, rfl, by decide, Or.inr ⟨by decide, by decide, rfl⟩⟩
  · exact Or.inr (Or.inl ⟨rfl, rfl, rfl, by decide, 0, by decide, rfl⟩)
  · exact Or.inr (Or.inr (Or.inl ⟨rfl, rfl, rfl, rfl, by decide, by decide, by decide, rfl⟩))

theorem witness_FailedAttemptOfASlot_characters :
    Fails (with1 held) 1 cfg att (.characterReceived 1 (plain 3)) .timeout (with1 held).nowUs none
    ∧ Fails (with1 (awaiting cfg)) 1 cfg att (.characterReceived 1 (marked 134)) .protocol (with1 (awaiting cfg)).nowUs none
    ∧ Fails (with1 (awaiting cfgClocked)) 1 cfgClocked att (.characterReceived 1 (plain 134)) .protocol
        (with1 (awaiting cfgClocked)).nowUs none
    ∧ Fails (with1 (receiving (rxOf none none [] []))) 1 cfg att (.characterReceived 1 (marked 3)) .protocol
        (with1 (receiving (rxOf none none [] []))).nowUs none
    ∧ Fails (with1 (receiving (rxOf (some 2) none [] []))) 1 cfg att (.characterReceived 1 (plain 65)) .protocol
        (with1 (receiving (rxOf (some 2) none [] []))).nowUs none
    ∧ Fails (with1 (ending 0xA [7])) 1 cfg att (.characterReceived 1 (lastChar 0xA [7])) .toggle
        (with1 (ending 0xA [7])).nowUs (some .data) := by
  refine ⟨?_, ?_, ?_, ?_, ?_, ?_⟩ <;> refine Or.inr (Or.inr (Or.inr ⟨rfl, _, rfl, ?_⟩))
  · exact Or.inl (by decide)
  · exact Or.inr (Or.inl ⟨rfl, rfl, by decide, Or.inr (Or.inr (by decide))⟩)
  · exact Or.inr (Or.inr (Or.inl (by decide)))
  · exact Or.inr (Or.inr (Or.inr (Or.inl ⟨rfl, rfl, by decide, Or.inr (Or.inr (by decide))⟩)))
  · exact Or.inr (Or.inr (Or.inr (Or.inr (Or.inl (by decide)))))
  · exact Or.inr (Or.inr (Or.inr (Or.inr (Or.inr ⟨_, frame_ends _ _ (by decide), by decide⟩))))

/-- The request of a STORE and of a POLL in place of the FETCH's. -/
def attOf (k : ReqKind) : Attempt := { att with frame := requestFrame 5 k false false (if k = .store then [1] else []) }

theorem witness_DeliveredResponseOfASlot :
    Attempted (with1 (ending 2 [7])) cfg ∧ (with1 (ending 2 [7])).KeysOk
    ∧ FrameEnds (with1 (ending 2 [7])) 1 cfg (response 2 [7] (checkOf 2 [7])) (.characterReceived 1 (lastChar 2 [7]))
    ∧ judgeFrame att (response 2 [7] (checkOf 2 [7])) = (.response .data 1 [7], some .data)
    ∧ judgeFrame att (response 5 [] (checkOf 5 [])) = (.response .refused 0 [], some .refused)
    ∧ judgeFrame (attOf .store) (response 1 [] (checkOf 1 [])) = (.response .done 0 [], some .done)
    ∧ judgeFrame (attOf .poll) (response 3 [] (checkOf 3 [])) = (.response .empty 0 [], some .empty)
    ∧ (slotIn .active).sub.buf.toNat + min 1 (slotIn .active).sub.inLimit.toNat ≤ 2 ^ 64 := by
  refine ⟨?_, keysOk_one rfl (by decide) (by decide), frame_ends _ _ (by decide), by decide, by decide, by decide, by decide, by decide⟩
  unfold Attempted Works
  decide

theorem witness_BusyResponseOfASlot :
    Attempted (with1 (ending 4 [])) cfg ∧ (with1 (ending 4 [])).KeysOk
    ∧ FrameEnds (with1 (ending 4 [])) 1 cfg (response 4 [] (checkOf 4 [])) (.characterReceived 1 (lastChar 4 []))
    ∧ judgeFrame att (response 4 [] (checkOf 4 [])) = (.response .busy 0 [], some .busy) := by
  refine ⟨?_, keysOk_one rfl (by decide) (by decide), frame_ends _ _ (by decide), by decide⟩
  unfold Attempted Works
  decide

/-- The part one character before the end of a scan poll's response. -/
def scans (ctrl : Byte) (data : List Byte) : State :=
  with1 { ending ctrl data with
    attempt := some { attOf .poll with requester := .scanner }, slots := ln.slots
    scanner := ⟨.polling, some 1, some (0, false), none, false⟩ }

theorem witness_ScanPollOutcome :
    (Works (scans 2 [7]) ∧ ((scans 2 [7]).line 1).config = some cfg ∧ ((scans 2 [7]).line 1).run = .running
      ∧ ((scans 2 [7]).line 1).attempt = some { attOf .poll with requester := .scanner }
      ∧ ((scans 2 [7]).line 1).scanner.state = .polling ∧ ((scans 2 [7]).line 1).scanner.polled = some (0, false)
      ∧ ((scans 2 [7]).line 1).scanner.reservation = some 1 ∧ (scans 2 [7]).station 0 = some st ∧ st.state = .online
      ∧ st.redelivery = false)
    ∧ (scans 2 [7]).KeysOk
    ∧ FrameEnds (scans 2 [7]) 1 cfg (response 2 [7] (checkOf 2 [7])) (.characterReceived 1 (lastChar 2 [7]))
    ∧ judgeFrame (attOf .poll) (response 2 [7] (checkOf 2 [7])) = (.response .data 1 [7], some .data)
    ∧ judgeFrame (attOf .poll) (response 3 [] (checkOf 3 [])) = (.response .empty 0 [], some .empty)
    ∧ judgeFrame (attOf .poll) (response 4 [] (checkOf 4 [])) = (.response .busy 0 [], some .busy)
    ∧ judgeFrame (attOf .poll) (response 5 [] (checkOf 5 [])) = (.response .refused 0 [], some .refused)
    ∧ (∃ p ∈ (scans 2 [7]).pool, p.head ≠ p.tail)
    ∧ ∀ p ∈ ({ scans 2 [7] with pool := some ⟨0x70000, 2, 1, 1⟩ } : State).pool, p.head = p.tail := by
  refine ⟨?_, keysOk_one rfl (by decide) (by decide), ?_, by decide, by decide, by decide, by decide, by decide, by decide⟩
  · unfold Works
    decide
  · exact frame_ends 2 [7] (by decide)

/-- Line 1 at the last character of a broadcast of one byte. -/
def broadcasting : Line :=
  { inPhase .sending with attempt := some { att with addr := 0, frame := requestFrame 0 .store false false [1] }, sentPos := 5, echoes := 6 }

theorem witness_BroadcastEndsSent :
    (with1 broadcasting).KeysOk ∧ Works (with1 broadcasting) ∧ broadcasting.config = some cfg ∧ broadcasting.run = .running
      ∧ broadcasting.phase = some .sending ∧ broadcasting.abortStop = false ∧ broadcasting.conflict = false
      ∧ (∃ a ∈ broadcasting.attempt, a.addr = 0 ∧ a.frame.length = broadcasting.sentPos + 1 ∧ a.requester = .slot 0)
      ∧ broadcasting.sentPos + 1 ≤ broadcasting.echoes ∧ (with1 broadcasting).slot 1 0 = some (slotIn .active) :=
  ⟨keysOk_one rfl (by decide) (by decide), Or.inl rfl, by decide, by decide, by decide, by decide, by decide, by decide, by decide,
    by decide⟩

theorem witness_ResponseFramesAreJudgedInOrder :
    att.frame = requestFrame 5 .fetch false false []
    ∧ checkOf 2 [7] = checkChars ([BitVec.ofNat 8 (128 + 5), 2, 1] ++ [7]) ∧ ¬ [0, 0] = checkChars ([BitVec.ofNat 8 (128 + 5), 2, 1] ++ [7])
    ∧ ((2 : Byte).toNat / 16 = 0 ∧ ((2 : Byte).toNat % 8, RespKind.data) ∈ [(2, RespKind.data), (4, .busy), (5, .refused)]
      ∧ 1 ≤ (1 : Byte).toNat ∧ (1 : Byte).toNat ≤ 64)
    ∧ (2 : Byte).getLsbD 3 = false ∧ (10 : Byte).getLsbD 3 ≠ false ∧ (0x12 : Byte).toNat / 16 ≠ 0 := by decide

theorem witness_CheckValueOfAFrame : (0 : Byte) ++ (0 : Byte) ≠ checkValue ([133, 2, 1] ++ [7]) := by decide

theorem witness_StationTimesAreReached :
    let s := up.setStation 0 (some { st with holdUntil := some 3 })
    Works s ∧ s.KeysOk ∧ ∃ x ∈ s.station 0, x.holdUntil = some 3 := by
  refine ⟨Or.inl rfl, keysOk_one (x := { st with holdUntil := some 3 }) ?_ (by decide) (by decide), by decide⟩
  exact vget_ext fun e => by
    by_cases h : e = 0
    · subst h; rfl
    · rw [show (up.setStation 0 (some { st with holdUntil := some 3 })).stations
        = vput up.stations 0 (some { st with holdUntil := some 3 }) from rfl, vget_vput_ne _ _ h, vget_vput_ne _ _ h,
        show up.stations = vput State.reset.stations 0 (some st) from rfl, vget_vput_ne _ _ h]

theorem witness_StationTimesAreReached_coalescing :
    let s := up.setCRing 1 (some { cr with unsignalled := 1, timer := some 0 })
    Works s ∧ ∃ c ∈ s.cring 1, c.timer = some 0 := by
  unfold Works
  decide

theorem witness_RecordsRoundTrip :
    ((decodeSub storeBytes).params.length = 8 ∧ (decodeSub storeBytes).flags.toNat < 8 ∧ (decodeSub storeBytes).zerosOk = true)
    ∧ (decodeBoot bootBytes).zerosOk = true
    ∧ ([9, 0, 0x1C, 0, 0, 0, 0, 0, 1, 22, 5, 1] ++ List.replicate 20 (0 : Byte)).length = 32
    ∧ decodeAdmin ([9, 0, 0x1C, 0, 0, 0, 0, 0, 1, 22, 5, 1] ++ List.replicate 20 0) = some (.stationAttach 1 22 0x0105) := by decide

/-- The RUNNING part with a command waiting. -/
def upPending : State := { up with pending := [.intEnable true] }

theorem upPending_keysOk : upPending.KeysOk := keysOk_one rfl (by decide) (by decide)

theorem upPending_queuesOk : upPending.QueuesOk := by
  unfold State.QueuesOk
  decide

theorem upPending_ringsOk : upPending.RingsOk := by
  unfold State.RingsOk SubRing.Ok CRing.Ok Pool.Ok
  decide

theorem upPending_restOk : upPending.RestOk := fun h => absurd h (by decide)

theorem upPending_inFlightOk : upPending.InFlightOk := by
  unfold State.InFlightOk
  decide

theorem upPending_capacityOk : upPending.CapacityOk := by
  refine fun _ => ⟨by decide, fun r c hc => ?_⟩
  have h : c = cr ∧ (r = 0 ∨ r = 1) := by
    revert r c
    decide
  obtain ⟨rfl, rfl | rfl⟩ := h
  · exact ⟨by decide, by decide, by decide, fun w hw => by simp [CRing.writers, cr] at hw⟩
  · exact ⟨by decide, by decide, by decide, fun w hw => by simp [CRing.writers, cr] at hw⟩

theorem witness_StepKeepsMemoryFormAndStationKeys : ∃ t, upPending.MemOk ∧ upPending.KeysOk ∧ step upPending = .next t :=
  (step_next upPending).imp fun _ h => ⟨rfl, upPending_keysOk, h⟩

theorem witness_StepKeepsNoticeQueues : ∃ t, upPending.QueuesOk ∧ step upPending = .next t :=
  (step_next upPending).imp fun _ h => ⟨upPending_queuesOk, h⟩

theorem witness_StepKeepsLineAndScannerLaws :
    ∃ t, upPending.LinesOk ∧ upPending.ScannersOk ∧ upPending.CapacityOk ∧ step upPending = .next t :=
  (step_next upPending).imp fun _ h => ⟨up_laws.1, up_laws.2.2, upPending_capacityOk, h⟩

theorem witness_StepKeepsThePartAtRest : ∃ t, upPending.RestOk ∧ step upPending = .next t :=
  (step_next upPending).imp fun _ h => ⟨upPending_restOk, h⟩

theorem witness_StepKeepsRingIndices : ∃ t, upPending.RingsOk ∧ step upPending = .next t :=
  (step_next upPending).imp fun _ h => ⟨upPending_ringsOk, h⟩

theorem witness_StepKeepsInFlightCounts : ∃ t, (upPending.RestOk ∧ upPending.InFlightOk) ∧ step upPending = .next t :=
  (step_next upPending).imp fun _ h => ⟨⟨upPending_restOk, upPending_inFlightOk⟩, h⟩

theorem witness_StepKeepsTheReservationLedger : ∃ t, upPending.LedgerOk ∧ step upPending = .next t :=
  (step_next upPending).imp fun _ h =>
    ⟨⟨up_laws.1, up_laws.2.1, up_laws.2.2, upPending_restOk, upPending_inFlightOk, upPending_capacityOk⟩, h⟩

/-! ## Witnesses of single clauses: other entries, slots and outcomes -/

/-- Line 1 with slot 0 replaced and the station in entry 0 replaced. -/
def at1 (x : Line) (y : Slot) (z : Station) : State :=
  { with1 (x.setSlot 0 (some y)) with stations := vput State.reset.stations 0 (some z) }

theorem at1_keysOk (x : Line) (y : Slot) {z : Station} (h : z.addr = 5) : (at1 x y z).KeysOk :=
  keysOk_one rfl (by omega) (by omega)

/-- The common hypotheses of the statements about the end of an attempt of slot 0, which holds `y`, to the station `z` in entry 0. -/
def AttemptedBy (s : State) (g : LineConfig) (y : Slot) (z : Station) : Prop :=
  Works s ∧ (s.line 1).config = some g ∧ (s.line 1).run = .running ∧ (s.line 1).attempt = some att ∧ att.requester = .slot 0
  ∧ s.slot 1 0 = some y ∧ y.state = .active ∧ y.outcome = none ∧ y.addr = att.addr
  ∧ s.station 0 = some z ∧ z.line = 1 ∧ z.addr = att.addr

/-- The station in DETACHING. -/
def stDetaching : Station := { st with state := .detaching }

/-- The station in SUSPECT with three failures behind it. -/
def stFailing : Station := { st with state := .suspect, failureCount := 3 }

theorem witness_FailedAttemptOfASlot_detaching :
    let s := at1 (awaiting cfg) (slotIn .active) stDetaching
    AttemptedBy s cfg (slotIn .active) stDetaching ∧ s.KeysOk ∧ stDetaching.state = .detaching
    ∧ Fails s 1 cfg att (.responseTimeout 1) .timeout (0 + charTimes cfg 40) none := by
  refine ⟨?_, at1_keysOk _ _ rfl, rfl, Or.inl ⟨rfl, rfl, rfl, by decide, Or.inl ⟨rfl, by decide, 0, by decide, rfl⟩⟩⟩
  unfold AttemptedBy Works
  decide

theorem witness_FailedAttemptOfASlot_offline :
    let s := at1 (awaiting cfg) (slotIn .active) stFailing
    AttemptedBy s cfg (slotIn .active) stFailing ∧ s.KeysOk ∧ stFailing.state = .suspect
    ∧ cfg.offlineAfter ≤ min 15 (stFailing.failureCount + 1)
    ∧ Fails s 1 cfg att (.responseTimeout 1) .timeout (0 + charTimes cfg 40) none := by
  refine ⟨?_, at1_keysOk _ _ rfl, rfl, by decide,
    Or.inl ⟨rfl, rfl, rfl, by decide, Or.inl ⟨rfl, by decide, 0, by decide, rfl⟩⟩⟩
  unfold AttemptedBy Works
  decide

theorem at1_frame_ends (ctrl : Byte) (data : List Byte) (y : Slot) (z : Station) (h : (BitVec.ofNat 8 data.length).toNat = data.length) :
    FrameEnds (at1 (ending ctrl data) y z) 1 cfg (response ctrl data (checkOf ctrl data)) (.characterReceived 1 (lastChar ctrl data)) := by
  obtain ⟨raw, hi, hc, ha⟩ := frame_ends ctrl data h
  refine ⟨raw, hi, ?_, ha⟩
  have h0 : (with1 (ending ctrl data)).line 1 = ending ctrl data := State.line_setLine_same _ _ _
  have h1 : (at1 (ending ctrl data) y z).line 1 = (ending ctrl data).setSlot 0 (some y) := State.line_setLine_same _ _ _
  rw [h0] at hc
  rw [h1]
  exact hc

/-- The FETCH with its buffer at the last byte of the address space. -/
def slotAtTop : Slot :=
  { slotIn .active with record := encodeSub { decodeSub fetchBytes with buf := 0xFFFFFFFFFFFFFFFF } }

theorem witness_DeliveredResponseOfASlot_aboveTheTop :
    let s := at1 (ending 2 [7, 8]) slotAtTop st
    AttemptedBy s cfg slotAtTop st ∧ s.KeysOk
    ∧ FrameEnds s 1 cfg (response 2 [7, 8] (checkOf 2 [7, 8])) (.characterReceived 1 (lastChar 2 [7, 8]))
    ∧ judgeFrame att (response 2 [7, 8] (checkOf 2 [7, 8])) = (.response .data 2 [7, 8], some .data)
    ∧ 2 ^ 64 < slotAtTop.sub.buf.toNat + min [(7 : Byte), 8].length slotAtTop.sub.inLimit.toNat
    ∧ 0 < min [(7 : Byte), 8].length slotAtTop.sub.inLimit.toNat := by
  refine ⟨?_, at1_keysOk _ _ rfl, at1_frame_ends _ _ _ _ (by decide), by decide, by decide, by decide⟩
  unfold AttemptedBy Works
  decide

theorem witness_DeliveredResponseOfASlot_entries :
    ∀ z ∈ [stDetaching, { st with state := .new }, { st with state := .offline }, { st with redelivery := true }],
      let s := at1 (ending 2 [7]) (slotIn .active) z
      AttemptedBy s cfg (slotIn .active) z ∧ s.KeysOk
      ∧ FrameEnds s 1 cfg (response 2 [7] (checkOf 2 [7])) (.characterReceived 1 (lastChar 2 [7])) := by
  refine fun z hz => ⟨?_, at1_keysOk _ _ ?_, at1_frame_ends _ _ _ _ (by decide)⟩
  · revert z
    unfold AttemptedBy Works
    decide
  · revert z
    decide

/-- The slot with sixteen BUSY responses behind it. -/
def slotBusy : Slot := { slotIn .active with busy := 16 }

theorem witness_BusyResponseOfASlot_limits :
    (∀ y ∈ [slotBusy, { slotIn .active with lastAttempt := true }], ∀ z ∈ [st, stDetaching],
      let s := at1 (ending 4 []) y z
      AttemptedBy s cfg y z ∧ s.KeysOk
      ∧ FrameEnds s 1 cfg (response 4 [] (checkOf 4 [])) (.characterReceived 1 (lastChar 4 [])))
    ∧ cfg.busyLimit < slotBusy.busy + 1 := by
  refine ⟨fun y hy z hz => ⟨?_, at1_keysOk _ _ ?_, at1_frame_ends _ _ _ _ (by decide)⟩, by decide⟩
  · revert y z
    unfold AttemptedBy Works
    decide
  · revert z
    decide

/-- The scan poll's request, the Scanner its requester. -/
def poll : Attempt := { attOf .poll with requester := .scanner }

/-- The part with a scan poll of the station `z` in hand on line `x`. -/
def polling (x : Line) (z : Station) : State :=
  { with1 { x with attempt := some poll, slots := ln.slots, scanner := ⟨.polling, some 1, some (0, false), none, false⟩ } with
    stations := vput State.reset.stations 0 (some z) }

/-- The hypotheses on a scan poll of the station `z`. -/
def Polled (s : State) (z : Station) : Prop :=
  Works s ∧ (s.line 1).config = some cfg ∧ (s.line 1).run = .running ∧ (s.line 1).attempt = some poll
  ∧ (s.line 1).scanner.state = .polling ∧ (s.line 1).scanner.polled = some (0, false) ∧ (s.line 1).scanner.reservation = some 1
  ∧ s.station 0 = some z ∧ z.line = 1 ∧ z.addr = poll.addr

/-- The station in each state, and with redelivery pending. -/
def entries : List Station :=
  [st, { st with state := .new }, { st with state := .suspect }, { st with state := .offline }, stDetaching, stFailing,
    { st with redelivery := true }]

theorem witness_ScanPollOutcome_entries :
    ∀ z ∈ entries, Polled (polling (ending 2 [7]) z) z ∧ (polling (ending 2 [7]) z).KeysOk
      ∧ FrameEnds (polling (ending 2 [7]) z) 1 cfg (response 2 [7] (checkOf 2 [7])) (.characterReceived 1 (lastChar 2 [7]))
      ∧ Fails (polling (awaiting cfg) z) 1 cfg poll (.responseTimeout 1) .timeout (0 + charTimes cfg 40) none
      ∧ Polled (polling (awaiting cfg) z) z := by
  refine fun z hz => ⟨?_, keysOk_one rfl ?_ ?_, frame_ends 2 [7] (by decide),
    Or.inl ⟨rfl, rfl, rfl, by decide +revert, Or.inl ⟨rfl, by decide +revert, 0, by decide +revert, rfl⟩⟩, ?_⟩
  · revert z
    unfold Polled Works
    decide
  · revert z
    decide
  · revert z
    decide
  · revert z
    unfold Polled Works
    decide

/-- Line 1 in SENDING with a conflict found, after `n` consecutive ones. -/
def conflicted (n : Nat) : Line := { inPhase .sending with conflict := true, conflictCount := n }

/-- Line 1 in SENDING with a character whose echo has not come. -/
def unechoed : Line := inPhase .sending

/-- The slot whose one retry is used. -/
def slotSpent : Slot := { slotIn .active with attempts := 1 }

theorem witness_ConflictEndsTheAttempt :
    (∀ x ∈ [conflicted 0, conflicted 2, unechoed], ∀ y ∈ [slotIn .active, slotSpent, { slotIn .active with lastAttempt := true }],
      ∀ z ∈ [st, stDetaching], AttemptedBy (at1 x y z) cfg y z ∧ (at1 x y z).KeysOk ∧ (at1 x y z).LinesOk
        ∧ ConflictFound (at1 x y z) 1 cfg (.characterSent 1))
    ∧ (conflicted 0).conflictCount + 1 < 3 ∧ 3 ≤ (conflicted 2).conflictCount + 1
    ∧ slotSpent.sub.retry.toNat ≤ slotSpent.attempts ∧ ¬ (slotIn .active).sub.retry.toNat ≤ (slotIn .active).attempts := by
  refine ⟨fun x hx y hy z hz => ⟨?_, at1_keysOk _ _ ?_, ?_, Or.inl ⟨rfl, ?_⟩⟩, by decide, by decide, by decide, by decide⟩
  · revert x y z
    unfold AttemptedBy Works
    decide
  · revert z
    decide
  · revert x y z
    unfold State.LinesOk Line.Ok
    decide
  · revert x y z
    decide

/-- The exchange of a broadcast. -/
def broadcast : Attempt := { att with addr := 0, frame := requestFrame 0 .store false false [1] }

/-- The slot that holds a broadcast. -/
def slotBroadcast : Slot := { slotIn .active with record := encodeSub (subOf 4 0 0 1) }

theorem witness_ConflictEndsTheAttempt_others :
    (let s := at1 { conflicted 0 with attempt := some broadcast } slotBroadcast st;
      Works s ∧ s.KeysOk ∧ s.LinesOk ∧ (s.line 1).attempt = some broadcast ∧ s.slot 1 0 = some slotBroadcast
      ∧ slotBroadcast.addr = broadcast.addr ∧ broadcast.addr = 0 ∧ slotBroadcast.state = .active ∧ slotBroadcast.outcome = none
      ∧ ConflictFound s 1 cfg (.characterSent 1))
    ∧ (let s := polling (conflicted 0) st;
      Polled s st ∧ s.KeysOk ∧ s.LinesOk ∧ ConflictFound s 1 cfg (.characterSent 1))
    ∧ (let s := at1 (inPhase .lead) (slotIn .active) st;
      AttemptedBy s cfg (slotIn .active) st ∧ s.KeysOk ∧ s.LinesOk ∧ ConflictFound s 1 cfg (.characterReceived 1 (marked 3))) := by
  refine ⟨⟨Or.inl rfl, at1_keysOk _ _ rfl, ?_, by decide, by decide, by decide, rfl, rfl, rfl, Or.inl ⟨rfl, by decide⟩⟩,
    ⟨?_, keysOk_one rfl (by decide) (by decide), ?_, Or.inl ⟨rfl, by decide⟩⟩,
    ?_, at1_keysOk _ _ rfl, ?_, Or.inr ⟨_, rfl, by decide⟩⟩
  · unfold State.LinesOk Line.Ok
    decide
  · unfold Polled Works
    decide
  · unfold State.LinesOk Line.Ok
    decide
  · unfold AttemptedBy Works
    decide
  · unfold State.LinesOk Line.Ok
    decide

/-! ## Witnesses of the units' own acts -/

theorem witness_GrantComposesTheRequest :
    (∃ x ∈ (with1 readyLine).slot 1 0, (with1 readyLine).arbiterChoice 1 = some (.slot 1 0) ∧ x.sub.kind = 1)
    ∧ (with1 readyLine).enabled (.grant 1) = true ∧ ((with1 readyLine).line 1).config = some cfg
    ∧ due.arbiterChoice 1 = some (.poll 0) ∧ due.enabled (.grant 1) = true ∧ (due.line 1).config = some cfg
    ∧ ∃ z ∈ due.station 0, z.state ≠ .offline := by
  decide

/-- The part with a record posted to ring 1 and to ring 0, and its station due for a scan poll. -/
def claiming : State :=
  ((up.modRing 1 fun r => { r with tail := 1 }).modRing 0 fun r => { r with tail := 1 }).setStation 0
    (some { st with scanPeriod := 5 })

/-- The same with C1 full. -/
def claimingFull : State := claiming.setCRing 1 (some { cr with written := 8 })

/-- The part with a Scanner HOLDING and no station due. -/
def holdingNone : State := with1 { ln with scanner := ⟨.holding, some 1, none, none, false⟩ }

theorem witness_ClaimsAreTakenInOrder :
    claiming.intakeChoice 1 = some (1, 1) ∧ claiming.enabled (.intake 1) = true ∧ claiming.ring 1 ≠ none
    ∧ claiming.enabled .adminRead = true ∧ claiming.ring 0 ≠ none
    ∧ claiming.enabled (.scanClaim 1) = true ∧ (claiming.line 1).noticeRing = some 1 ∧ Place claiming 1
    ∧ claimingFull.enabled (.scanClaim 1) = true ∧ ¬ Place claimingFull 1
    ∧ holdingNone.enabled (.scanReturn 1) = true ∧ (holdingNone.line 1).scanner.reservation = some 1 := by
  unfold Place
  decide

/-- The part with slot 0 in FINISHING, its record behind none. -/
def finishing : State := with1 { ln with slots := vput ln.slots 0 (some { slotIn .finishing with outcome := some ⟨.ok, .synced, 1, 1⟩ }) }

/-- The part with the station's notice in the queue. -/
def noticeQueued : State :=
  { with1 { ln with noticeQueue := [0] } with stations := vput State.reset.stations 0 (some { st with noticePending := true, changes := 1 }) }

/-- The part with an admin command whose status is decided. -/
def decidedAdmin : State :=
  { asks with admin := ⟨.completing, some ⟨encodeAdmin 7 (.stationQuery 0 false 0x80000), 0, [], none, some (.ok, 32)⟩, false, none⟩ }

theorem witness_NoticesAndWritesBeginInOrder :
    finishing.enabled (.txn 1) = true ∧ (finishing.line 1).txnWriter = none ∧ Writable finishing 1 0
        { slotIn .finishing with outcome := some ⟨.ok, .synced, 1, 1⟩ }
    ∧ (with1 { ln with linePending := true }).enabled (.notice 1) = true
    ∧ noticeQueued.enabled (.notice 1) = true ∧ (noticeQueued.line 1).noticeQueue = [0] ∧ (noticeQueued.line 1).linePending = false
    ∧ (finishing.setCRing 1 (some { cr with reserved := 1, waiting := [.slot 1 0] })).enabled (.startWrite 1) = true
    ∧ ((finishing.setCRing 1 (some { cr with reserved := 1, waiting := [.slot 1 0] })).recordOf (.slot 1 0)).isSome = true
    ∧ decidedAdmin.enabled .adminWrite = true := by
  unfold Writable
  decide

theorem witness_CompletionRecordLayout :
    (lineNoticeRecord 1 ln).kind ≠ .scanData
    ∧ (∃ x ∈ finishing.slot 1 0, ∃ o ∈ x.outcome, o.detail = .synced)
    ∧ (∃ k ∈ decidedAdmin.admin.command, k.record = encodeAdmin 7 (.stationQuery 0 false 0x80000) ∧ k.result = some (.ok, 32))
    ∧ (∃ d ∈ ((with1 { ln with scanner :=
        ⟨.delivering, some 1, none, some ⟨0, 5, 0, 0x70000, [7], some 0x90000, some .ok, none⟩, false⟩ }).line 1).scanner.delivery,
        d.status = some .ok ∧ d.buffer = some 0x90000 ∧ (scanDataRecord 1 d).kind = .scanData)
    ∧ (noticeQueued.line 1).noticeQueue = [0] ∧ noticeQueued.station 0 ≠ none
    ∧ ((with1 { ln with linePending := true }).line 1).linePending = true := by
  decide

/-- The part in FAULTED with its contexts held and a command waiting. -/
def faultedPart : State := { up with device := .faulted, lines := State.reset.lines, pending := [.intEnable true] }

theorem witness_StepKeepsThePartAtRest_faulted :
    ∃ t, faultedPart.working = false ∧ faultedPart.RestOk ∧ faultedPart.ring 1 ≠ none ∧ step faultedPart = .next t := by
  refine (step_next faultedPart).imp fun _ h => ⟨by decide, ?_, by decide, h⟩
  unfold State.RestOk Line.Rests
  decide

/-- Line 1 stopping gracefully with a conflict found, after `n` consecutive ones. -/
def conflictedStopping (n : Nat) : Line := { conflicted n with run := .stopping }

/-- The station with redelivery pending. -/
def stRedelivers : Station := { st with redelivery := true }

theorem witness_ConflictEndsTheAttempt_gracefulStop :
    (∀ n ∈ [0, 2], let s := at1 (conflictedStopping n) (slotIn .active) stRedelivers
      Works s ∧ (s.line 1).config = some cfg ∧ (s.line 1).run = .stopping ∧ s.KeysOk ∧ s.LinesOk
        ∧ (s.line 1).attempt = some att ∧ s.slot 1 0 = some (slotIn .active) ∧ s.station 0 = some stRedelivers
        ∧ ConflictFound s 1 cfg (.characterSent 1))
    ∧ stRedelivers.line = 1 ∧ stRedelivers.addr = att.addr ∧ att.requester = .slot 0 ∧ (slotIn .active).addr = att.addr
    ∧ (∀ n ∈ [0, 2], ∃ z ∈ (at1 (conflictedStopping n) (slotIn .active) stRedelivers).keyed 1 att.addr, z.redelivery = true)
    ∧ ¬ (slotIn .active).sub.retry.toNat ≤ (slotIn .active).attempts := by
  refine ⟨fun n hn => ⟨Or.inl rfl, ?_, ?_, at1_keysOk _ _ rfl, ?_, ?_, ?_, ?_, Or.inl ⟨rfl, ?_⟩⟩, by decide, by decide, by decide, by decide,
    by decide, by decide⟩
  all_goals revert n
  · decide
  · decide
  · unfold State.LinesOk Line.Ok
    decide
  all_goals decide

/-- The part with a fenced slot in WAITING, alone of its ring. -/
def fenced : State := with1 { ln with slots := vput ln.slots 0 (some (slotIn .waiting)) }

/-- The part with its ring 1 in DRAINING and nothing of it in flight. -/
def drainedRing : State := up.modRing 1 fun r => { r with state := .draining, inFlight := 0 }

/-- The part whose Admin Processor waits for `w`, line 1 in run state `r`. -/
def waitsFor (w : AdminWait) (r : RunState) : State :=
  { with1 { ln with run := r, phase := none, faultCause := if r = .faulted then some .stuck else none } with
    admin := ⟨.waiting, some ⟨encodeAdmin 7 .poolDelete, 3, [], some w, none⟩, false, none⟩ }

/-- The part in DISABLING with nothing in hand. -/
def allDone : State := { up with device := .disabling, lines := State.reset.lines }

theorem witness_ConsequencesTakeEffect :
    (fenced.enabled (.fence 1 0) = true ∧ fenced.slot 1 0 = some (slotIn .waiting) ∧ (slotIn .waiting).outcome = none)
    ∧ drainedRing.enabled (.drain 1) = true ∧ (with1 { ln with run := .stopping }).enabled (.lineStopped 1) = true
    ∧ allDone.enabled .reachOff = true
    ∧ (∀ p ∈ [(AdminWait.lineStart 1, RunState.running), (.lineStart 1, .faulted), (.lineStop 1, .stopped), (.lineStop 1, .faulted),
        (.lineAbort 1, .stopped), (.lineAbort 1, .faulted), (.ringDelete 9, .running), (.detach 9, .running)],
      (waitsFor p.1 p.2).enabled .adminEnd = true ∧ (waitsFor p.1 p.2).admin.phase = .waiting) := by
  decide

/-- The part's waiting command is met with a status and a value. -/
def MetBy (s : State) (st : Status) (v : Nat) : Prop := ∃ c ∈ s.admin.command, Met s c st v

theorem witness_ConsequencesTakeEffect_met :
    MetBy (waitsFor (.lineStart 1) .running) .ok 0 ∧ MetBy (waitsFor (.lineStart 1) .faulted) .lineFault 2
    ∧ MetBy (waitsFor (.lineStop 1) .stopped) .ok 0 ∧ MetBy (waitsFor (.lineStop 1) .faulted) .lineFault 2
    ∧ MetBy (waitsFor (.lineAbort 1) .stopped) .ok 0 ∧ MetBy (waitsFor (.lineAbort 1) .faulted) .ok 0
    ∧ MetBy (waitsFor (.ringDelete 9) .running) .ok 3 ∧ MetBy (waitsFor (.detach 9) .running) .ok 9 :=
  ⟨⟨_, rfl, Or.inl ⟨by decide, rfl, rfl⟩⟩, ⟨_, rfl, Or.inr ⟨by decide, rfl, rfl⟩⟩, ⟨_, rfl, Or.inl ⟨by decide, rfl, rfl⟩⟩,
    ⟨_, rfl, Or.inr ⟨by decide, rfl, rfl⟩⟩, ⟨_, rfl, Or.inl (by decide), rfl, rfl⟩, ⟨_, rfl, Or.inr (by decide), rfl, rfl⟩,
    ⟨_, rfl, by decide, rfl, rfl⟩, ⟨_, rfl, by decide, rfl, rfl⟩⟩

/-- The part with a slot's record and the Admin Processor's both to be written into C0. -/
def rivals : State := finishing.modRing 1 (fun r => { r with cring := 0 })
  |> fun s => { s with admin := decidedAdmin.admin }

theorem witness_ClaimsAreTakenInOrder_nextAct :
    (fenced.nextAct = some (.fence 1 0, false)) ∧ State.reset.nextAct = none ∧ rivals.nextAct.map (·.2) = some true
    ∧ State.reset.react = State.reset := by
  refine ⟨by decide, by decide, rfl, State.react_of_none (by decide)⟩

/-- Line 1 stopping gracefully while a record read is in progress (R42, graceful LINE_STOP row). -/
def stoppingReads : State := with1 { readingLine [] with run := .stopping }

theorem test_graceful_stop_waits_for_the_read : stoppingReads.enabled (.lineStopped 1) = false := by decide

theorem test_record_read_in_stopping_runs :
    let t := after (.recordRead 1 (.ok fetchBytes)) stoppingReads
    (t.line 1).run = .stopping ∧ (t.slot 1 0).map (·.state) = some .active := by decide

end Sys2Proof.Tests
end

/-! # The check characters of a frame (R13)

The check value as a fold over the covered bytes, its two characters as the halves of one 16-bit value, and what a received pair decides. -/

namespace Sys2Proof.Machine

/-! ## The register (R13 steps 1 to 4) -/

/-- The register's top bit is its bit 15. -/
theorem checkBit_eq (reg : BitVec 16) (bit : Bool) :
    checkBit reg bit = if reg.getLsbD 15 = bit then reg <<< 1 else (reg <<< 1) ^^^ 0x1021#16 := by
  rw [checkBit, BitVec.msb_eq_getLsbD_last]

theorem dataBits_reverse (v : Byte) : (dataBits v).reverse = [7, 6, 5, 4, 3, 2, 1, 0].map v.getLsbD := rfl

/-- A byte enters the register from its bit 7 down to its bit 0. -/
theorem checkByte_eq (reg : BitVec 16) (v : Byte) :
    checkByte reg v = [7, 6, 5, 4, 3, 2, 1, 0].foldl (fun (reg : BitVec 16) k =>
      if reg.getLsbD 15 = v.getLsbD k then reg <<< 1 else (reg <<< 1) ^^^ 0x1021#16) reg := by
  rw [checkByte, dataBits_reverse, List.foldl_map]
  simp only [checkBit_eq]

@[simp] theorem checkValue_nil : checkValue [] = 0xFFFF#16 := rfl

@[simp] theorem checkValue_append_singleton (bs : List Byte) (v : Byte) :
    checkValue (bs ++ [v]) = checkByte (checkValue bs) v :=
  List.foldl_concat checkByte _ v bs

/-! ## The two CHECK characters -/

/-- A pair of characters, the high byte first, is the CHECK of the covered bytes exactly when it forms their check value. -/
theorem pair_eq_checkChars_iff (hi lo : Byte) (bs : List Byte) : [hi, lo] = checkChars bs ↔ hi ++ lo = checkValue bs := by
  constructor
  · intro h
    obtain ⟨rfl, rfl⟩ : hi = (checkValue bs).extractLsb' 8 8 ∧ lo = (checkValue bs).extractLsb' 0 8 := by
      simpa [checkChars] using h
    exact (BitVec.extractLsb'_append_extractLsb'_eq_extractLsb' rfl).trans BitVec.extractLsb'_eq_self
  · intro h
    rw [checkChars, ← h, BitVec.extractLsb'_append_eq_left, BitVec.extractLsb'_append_eq_right]

theorem exists_checkChars_eq (bs : List Byte) : ∃ hi lo : Byte, checkChars bs = [hi, lo] ∧ hi ++ lo = checkValue bs :=
  ⟨_, _, rfl, (pair_eq_checkChars_iff _ _ bs).1 rfl⟩

/-! ## The test of a complete frame (R13, R81 step 1) -/

theorem checkGood_iff (a c n : Byte) (data : List Byte) (hi lo : Byte) :
    RxRecord.checkGood ⟨some a, some c, some n, data, [hi, lo]⟩ = true ↔ hi ++ lo = checkValue ([a, c, n] ++ data) := by
  rw [← pair_eq_checkChars_iff, RxRecord.checkGood, beq_iff_eq]
  rfl

/-- The check is tested first, so a frame that fails it is judged CHECK whatever its kind and echo. -/
theorem judgeFrame_of_not_checkGood (q : Attempt) (r : RxRecord) (h : ¬ r.checkGood = true) :
    judgeFrame q r = (.failure .check, none) := by
  simp [judgeFrame, h]

/-- Settles O49: the register's fold over the covered bytes, the two characters as its halves, and the test of a received pair. -/
theorem checkValueOfAFrame : Obligations.CheckValueOfAFrame := by
  refine ⟨checkValue_nil, fun bs v => ?byte, exists_checkChars_eq, fun _ _ _ _ _ => rfl, checkGood_iff,
    fun q a c n data hi lo hbad => ?bad⟩
  case byte => rw [checkValue_append_singleton, checkByte_eq]
  case bad => exact judgeFrame_of_not_checkGood q _ (mt (checkGood_iff a c n data hi lo).1 hbad)

end Sys2Proof.Machine

/-! # What an attempt's outcome leaves of every line's phase (R53, R82)

The counters, the station table, the slots and the Scanner take an outcome without touching the exchange phase of any line. -/

namespace Sys2Proof.Machine

/-! ## Lines and slots -/

@[simp] theorem State.modLine_line_phase (s : State) (k l : LineId) (f : Line → Line) (h : ∀ x, (f x).phase = x.phase) :
    ((s.modLine k f).line l).phase = (s.line l).phase := by
  by_cases hl : l = k
  · subst hl; simp [h]
  · rw [State.line_modLine_ne s f hl]

@[simp] theorem State.modSlot_line_phase (s : State) (k l : LineId) (i : SlotId) (f : Slot → Slot) :
    ((s.modSlot k i f).line l).phase = (s.line l).phase :=
  s.modLine_line_phase k l _ fun _ => rfl

@[simp] theorem State.returnReservation_line_phase (s : State) (r : CRingId) (l : LineId) :
    ((s.returnReservation r).line l).phase = (s.line l).phase := by
  rw [State.returnReservation, State.line_gainPlace, Line.placeGained_eq, State.modCRing_line_frame]

@[simp] theorem State.deferReady_line_phase (s : State) (k l : LineId) (a : Nat) :
    ((s.deferReady k a).line l).phase = (s.line l).phase :=
  s.modLine_line_phase k l _ fun _ => rfl

@[simp] theorem State.releaseDeferred_line_phase (s : State) (k l : LineId) (a : Nat) :
    ((s.releaseDeferred k a).line l).phase = (s.line l).phase := by
  unfold State.releaseDeferred
  split
  · rfl
  · exact s.modLine_line_phase k l _ fun _ => rfl

/-! ## The station table -/

@[simp] theorem State.changeState_line_phase (s : State) (e : EntryId) (st : StationState) (l : LineId) :
    ((s.changeState e st).line l).phase = (s.line l).phase := by
  unfold State.changeState
  split <;> simp

@[simp] theorem State.freeEntry_line_phase (s : State) (e : EntryId) (l : LineId) :
    ((s.freeEntry e).line l).phase = (s.line l).phase := by
  unfold State.freeEntry
  split <;> simp

@[simp] theorem State.freeDetaching_line_phase (s : State) (e : EntryId) (l : LineId) :
    ((s.freeDetaching e).line l).phase = (s.line l).phase :=
  s.freeEntry_line_phase e l

@[simp] theorem State.moveOffline_line_phase (s : State) (e : EntryId) (l : LineId) :
    ((s.moveOffline e).line l).phase = (s.line l).phase := by
  unfold State.moveOffline
  split
  · rfl
  · simp [Line.mapSlots]

@[simp] theorem State.clearRedelivery_line_phase (s : State) (e : EntryId) (sync : Bool) (l : LineId) :
    ((s.clearRedelivery e sync).line l).phase = (s.line l).phase := by
  unfold State.clearRedelivery
  split
  · rfl
  · split <;> simp

@[simp] theorem State.stationDelivered_line_phase (s : State) (e : EntryId) (toggle sync : Bool) (l : LineId) :
    ((s.stationDelivered e toggle sync).line l).phase = (s.line l).phase := by
  unfold State.stationDelivered
  split
  · rfl
  · dsimp only
    split <;> simp

@[simp] theorem State.failureAccounting_line_phase (s : State) (e : EntryId) (c : Cause) (l : LineId) :
    ((s.failureAccounting e c).line l).phase = (s.line l).phase := by
  unfold State.failureAccounting
  split
  · rfl
  · dsimp only
    split <;> simp

@[simp] theorem State.stationBusy_line_phase (s : State) (e : EntryId) (l : LineId) :
    ((s.stationBusy e).line l).phase = (s.line l).phase := by
  unfold State.stationBusy
  split <;> simp

@[simp] theorem State.stationRedelivery_line_phase (s : State) (e : EntryId) (l : LineId) :
    ((s.stationRedelivery e).line l).phase = (s.line l).phase := by
  unfold State.stationRedelivery
  split <;> simp

@[simp] theorem State.scheduleNext_line_phase (s : State) (e : EntryId) (l : LineId) :
    ((s.scheduleNext e).line l).phase = (s.line l).phase := by
  unfold State.scheduleNext
  split <;> simp

@[simp] theorem State.countExchange_line_phase (s : State) (k : LineId) (a : Nat) (kind : Option RespKind) (l : LineId) :
    ((s.countExchange k a kind).line l).phase = (s.line l).phase := by
  unfold State.countExchange
  split <;> simp

/-! ## The slot's part (R53) -/

@[simp] theorem State.entryOutcome_line_phase (s : State) (e : EntryId) (detaching : Bool) (a : Attempt) (o : AttemptOutcome)
    (l : LineId) : ((s.entryOutcome e detaching a o).line l).phase = (s.line l).phase := by
  unfold State.entryOutcome
  split
  · simp
  · split <;> simp

@[simp] theorem Line.countHostResponse_phase (o : AttemptOutcome) (x : Line) : (x.countHostResponse o).phase = x.phase := by
  unfold Line.countHostResponse
  split <;> rfl

@[simp] theorem State.slotOutcome_line_phase (s : State) (k : LineId) (i : SlotId) (a : Attempt) (o : AttemptOutcome) (l : LineId) :
    ((s.slotOutcome k i a o).line l).phase = (s.line l).phase := by
  unfold State.slotOutcome
  dsimp only
  rw [State.modSlot_line_phase]
  split <;> simp

/-! ## The Scanner's part (R111) -/

@[simp] theorem State.modLine_countDelivered_line_phase (s : State) (k l : LineId) :
    ((s.modLine k Line.countDelivered).line l).phase = (s.line l).phase :=
  s.modLine_line_phase k l _ fun _ => rfl

@[simp] theorem State.modLine_countBusy_line_phase (s : State) (k l : LineId) :
    ((s.modLine k Line.countBusy).line l).phase = (s.line l).phase :=
  s.modLine_line_phase k l _ fun _ => rfl

@[simp] theorem State.modLine_countPoolStarve_line_phase (s : State) (k l : LineId) :
    ((s.modLine k Line.countPoolStarve).line l).phase = (s.line l).phase :=
  s.modLine_line_phase k l _ fun _ => rfl

@[simp] theorem State.endPoll_line_phase (s : State) (k l : LineId) : ((s.endPoll k).line l).phase = (s.line l).phase := by
  unfold State.endPoll
  dsimp only
  split <;> simp

@[simp] theorem State.scanDelivered_line_phase (s : State) (k : LineId) (e : EntryId) (detaching : Bool) (a : Attempt) (l : LineId) :
    ((s.scanDelivered k e detaching a).line l).phase = (s.line l).phase := by
  unfold State.scanDelivered
  dsimp only
  split <;> simp

theorem State.poolClaim_line {s t : State} {i : Nat} {a : Addr} (h : s.poolClaim = some ((i, a), t)) (l : LineId) :
    t.line l = s.line l := by
  obtain ⟨p, -, -, -, -, rfl⟩ := State.poolClaim_some h
  rfl

@[simp] theorem State.scanOutcome_line_phase (s : State) (k : LineId) (e : EntryId) (detaching : Bool) (a : Attempt)
    (o : AttemptOutcome) (l : LineId) : ((s.scanOutcome k e detaching a o).line l).phase = (s.line l).phase := by
  unfold State.scanOutcome
  split
  case h_1 =>
    split
    case h_1 hclaim => simp [State.poolClaim_line hclaim]
    case h_2 => cases detaching <;> simp
  all_goals cases detaching <;> simp

/-! ## The hand-off on entry to SETTLE (R82) -/

@[simp] theorem State.handToRequester_line_phase (s : State) (k : LineId) (a : Attempt) (o : AttemptOutcome) (l : LineId) :
    ((s.handToRequester k a o).line l).phase = (s.line l).phase := by
  unfold State.handToRequester
  split
  · simp
  · split <;> simp

@[simp] theorem Line.countConflict_phase (o : AttemptOutcome) (x : Line) : (x.countConflict o).phase = x.phase := rfl

@[simp] theorem Line.countOutcome_phase (o : AttemptOutcome) (x : Line) : (x.countOutcome o).phase = x.phase := by
  cases o <;> rfl

/-- An outcome other than CONFLICT leaves the line in SETTLE: it clears the conflict count, so the third-conflict fault does not arise. -/
theorem State.endAttempt_phase (s : State) (l : LineId) {o : AttemptOutcome} (kind : Option RespKind) (h : o ≠ .failure .conflict) :
    ((s.endAttempt l o kind).line l).phase = some .settle := by
  unfold State.endAttempt
  split
  · simp [Line.enterSettle]
  · dsimp only
    rw [if_neg (by simp [Line.countConflict, h, Config.conflictLimit])]
    simp [Line.enterSettle]

end Sys2Proof.Machine

/-! # The judgement of a complete response frame (R12, R81)

What of a request the judgement reads back from its frame, which responses are legal for it, and the outcome of each of the three tests. -/

namespace Sys2Proof.Machine

/-! ## The request read back from its frame (R9) -/

theorem byteAt_requestFrame_one (addr : Nat) (req : ReqKind) (toggle sync : Bool) (body : List Byte) :
    byteAt (requestFrame addr req toggle sync body) 1 = requestCtrl req toggle sync := rfl

theorem requestCtrl_kindCode (req : ReqKind) (toggle sync : Bool) : (requestCtrl req toggle sync).extractLsb' 0 3 = req.code :=
  BitVec.extractLsb'_append_eq_right

theorem requestCtrl_toggle (req : ReqKind) (toggle sync : Bool) : (requestCtrl req toggle sync).getLsbD 3 = toggle := by
  rw [requestCtrl, BitVec.getLsbD_append, BitVec.getLsbD_append]
  simp

section
variable {a : Attempt} {addr : Nat} {req : ReqKind} {toggle sync : Bool} {body : List Byte}

theorem Attempt.kindCode_of_requestFrame (h : a.frame = requestFrame addr req toggle sync body) : a.kindCode = req.code := by
  rw [Attempt.kindCode, h, byteAt_requestFrame_one, requestCtrl_kindCode]

theorem Attempt.toggle_of_requestFrame (h : a.frame = requestFrame addr req toggle sync body) : a.toggle = toggle := by
  rw [Attempt.toggle, h, byteAt_requestFrame_one, requestCtrl_toggle]

end

/-! ## The legality of a response (R12) -/

/-- The response kinds permitted for a request kind, each with its CTRL code (R11, R12). -/
def ReqKind.answers : ReqKind → List (Nat × RespKind)
  | .fetch => [(2, .data), (4, .busy), (5, .refused)]
  | .store => [(1, .done), (4, .busy), (5, .refused)]
  | .poll => [(2, .data), (3, .empty), (4, .busy), (5, .refused)]

/-- A response with CTRL `k` and LEN `n` is legal, as the kind `kd`, for the request kind (R12). -/
def LegalAs (req : ReqKind) (k n : Byte) (kd : RespKind) : Prop :=
  k.toNat / 16 = 0 ∧ (k.toNat % 8, kd) ∈ req.answers ∧ if kd = .data then 1 ≤ n.toNat ∧ n.toNat ≤ 64 else n = 0

theorem extractLsb'_four_four_eq_zero_iff (k : Byte) : k.extractLsb' 4 4 = 0 ↔ k.toNat / 16 = 0 := by
  rw [← BitVec.toNat_inj, BitVec.extractLsb'_toNat, Nat.shiftRight_eq_div_pow]
  have := k.isLt
  simp only [BitVec.ofNat_eq_ofNat, BitVec.toNat_ofNat]
  omega

theorem mem_answers_iff (req : ReqKind) (code : BitVec 3) (kd : RespKind) :
    (code.toNat, kd) ∈ req.answers ↔ respKindOf code = some kd ∧ permitted req.code kd = true := by
  revert code
  cases req <;> cases kd <;> decide

theorem lenFits_iff (kd : RespKind) (n : Byte) :
    lenFits kd n.toNat = true ↔ if kd = .data then 1 ≤ n.toNat ∧ n.toNat ≤ 64 else n = 0 := by
  cases kd <;> simp [lenFits, ← BitVec.toNat_inj]

/-- The legality test finds exactly the kind as which the response is legal. -/
theorem legalKind_eq_some_iff (addr : Option Byte) (k n : Byte) (data check : List Byte) (req : ReqKind) (kd : RespKind) :
    RxRecord.legalKind ⟨addr, some k, some n, data, check⟩ req.code = some kd ↔ LegalAs req k n kd := by
  have hcode : (k.extractLsb' 0 3).toNat = k.toNat % 8 := by simp [BitVec.extractLsb'_toNat]
  rw [LegalAs, ← hcode, mem_answers_iff, ← lenFits_iff, ← extractLsb'_four_four_eq_zero_iff]
  unfold RxRecord.legalKind
  simp only [Option.getD_some]
  split
  case isTrue hhigh => exact iff_of_false (by simp) fun h => hhigh h.1
  case isFalse hhigh =>
    rw [not_not] at hhigh
    split
    case h_1 hnone => simp [hnone]
    case h_2 found hfound =>
      obtain rfl | hne := eq_or_ne found kd
      · simp [hhigh, hfound]
      · simp [hfound, hne]

/-! ## The three tests in order (R81) -/

theorem checkGood_mk_iff (addr k n : Byte) (data check : List Byte) :
    RxRecord.checkGood ⟨some addr, some k, some n, data, check⟩ = true ↔ check = checkChars ([addr, k, n] ++ data) :=
  beq_iff_eq

theorem judgeFrame_of_legalKind_none {a : Attempt} {r : RxRecord} (hgood : r.checkGood = true)
    (hlegal : r.legalKind a.kindCode = none) : judgeFrame a r = (.failure .protocol, none) := by
  simp [judgeFrame, hgood, hlegal]

theorem judgeFrame_of_legalKind_some {a : Attempt} {r : RxRecord} {kd : RespKind} (hgood : r.checkGood = true)
    (hlegal : r.legalKind a.kindCode = some kd) :
    judgeFrame a r = if (r.ctrl.getD 0).getLsbD 3 = a.toggle then (.response kd (r.len.getD 0).toNat r.payload, some kd)
      else (.failure .toggle, some kd) := by
  simp [judgeFrame, hgood, hlegal]

/-- A complete frame is never judged CONFLICT: the receiver is past the conflict tests of sending. -/
theorem judgeFrame_ne_conflict (a : Attempt) (r : RxRecord) : (judgeFrame a r).1 ≠ .failure .conflict := by
  unfold judgeFrame
  split
  · simp
  · split
    · simp
    · split <;> simp

/-- Settles O48: the check alone decides CHECK, the kinds legal for the request decide PROTOCOL, the echo decides TOGGLE or the response, and
no outcome of the judgement is the CONFLICT that could fault the line in place of SETTLE. -/
theorem responseFramesAreJudgedInOrder : Obligations.ResponseFramesAreJudgedInOrder := by
  intro a req addr toggle sync body k n data check hframe rx good high code kinds legal
  have hgood : rx.checkGood = true ↔ good := checkGood_mk_iff _ k n data check
  have hlegal (kd : RespKind) : rx.legalKind a.kindCode = some kd ↔ legal kd := by
    rw [Attempt.kindCode_of_requestFrame hframe]
    refine (legalKind_eq_some_iff _ k n data check req kd).trans ?_
    cases req <;> rfl
  have htoggle : a.toggle = toggle := Attempt.toggle_of_requestFrame hframe
  refine ⟨fun hbad => ?check, fun hg hnone => ?protocol, fun hg kd hkd => ?legal, fun s l kind => ?settle⟩
  case check => exact judgeFrame_of_not_checkGood a rx (mt hgood.1 hbad)
  case protocol =>
    exact judgeFrame_of_legalKind_none (hgood.2 hg) (Option.eq_none_iff_forall_ne_some.2 fun kd => mt (hlegal kd).1 (hnone kd))
  case legal =>
    have hjudge := judgeFrame_of_legalKind_some (hgood.2 hg) ((hlegal kd).2 hkd)
    exact ⟨fun hecho => hjudge.trans (if_neg (htoggle ▸ hecho)), fun hecho => hjudge.trans (if_pos (htoggle ▸ hecho))⟩
  case settle => exact s.endAttempt_phase l kind (judgeFrame_ne_conflict a rx)

end Sys2Proof.Machine

/-! # What the units' own acts leave as it is

Each act changes its own part of the state alone; what one act leaves, a run of acts leaves, up to the arrival in OFF. -/

namespace Sys2Proof.Machine

/-! ## The relations of one part, along a run of acts -/

theorem Slot.After.refl (x : Slot) : x.After x := ⟨rfl, .inl rfl, .inl rfl, .inl rfl⟩

theorem Slot.After.trans {x y z : Slot} (h : x.After y) (k : y.After z) : x.After z where
  rest := by rw [k.rest, h.rest]
  state := by
    have := h.state
    have := k.state
    grind
  outcome := by
    have := h.state
    have := h.outcome
    have := k.state
    have := k.outcome
    grind
  syncAttempt := by
    have := h.state
    have := h.syncAttempt
    have := k.state
    have := k.syncAttempt
    grind

theorem Line.ExchangeAfter.refl (x : Line) : x.ExchangeAfter x where
  run := .inl rfl
  phase := .inl rfl
  quiet _ _ := by simp

theorem Line.ExchangeAfter.trans {x y z : Line} (h : x.ExchangeAfter y) (k : y.ExchangeAfter z) : x.ExchangeAfter z := by
  have hr := h.run
  have hp := h.phase
  have kr := k.run
  have kp := k.phase
  refine ⟨by grind, by grind, fun er ep => ?_⟩
  have same : y.run = x.run ∧ y.phase = x.phase := by grind
  have hq := h.quiet same.1 same.2
  have kq := k.quiet (er.trans same.1.symm) (ep.trans same.2.symm)
  grind

theorem Line.After.refl (x : Line) : x.After x where
  exchange := .refl x
  config := rfl
  lastFault := rfl
  conflictCount := rfl
  nextAge := rfl
  rxd := rfl
  counters := rfl
  freeSlots _ h := h
  slots _ a h := ⟨a, h, .refl a⟩
  read := .inl rfl
  txnWriter := .inl rfl
  notice := .inl rfl
  linePending := .inl rfl
  noticeQueue := List.suffix_refl _
  delivery := rfl
  poll _ := rfl

theorem Line.After.trans {x y z : Line} (h : x.After y) (k : y.After z) : x.After z where
  exchange := h.exchange.trans k.exchange
  config := k.config.trans h.config
  lastFault := k.lastFault.trans h.lastFault
  conflictCount := k.conflictCount.trans h.conflictCount
  nextAge := k.nextAge.trans h.nextAge
  rxd := k.rxd.trans h.rxd
  counters := by rw [k.counters, h.counters]
  freeSlots i hi := k.freeSlots i (h.freeSlots i hi)
  slots i a ha := by
    obtain ⟨b, hb, hab⟩ := h.slots i a ha
    obtain ⟨c, hc, hbc⟩ := k.slots i b hb
    exact ⟨c, hc, hab.trans hbc⟩
  read := by
    have := h.read
    have := k.read
    grind
  txnWriter := by
    have := h.txnWriter
    have := k.txnWriter
    grind
  notice := by
    have := h.notice
    have := k.notice
    grind
  linePending := by
    have := h.linePending
    have := k.linePending
    grind
  noticeQueue := k.noticeQueue.trans h.noticeQueue
  delivery := k.delivery.trans h.delivery
  poll hx := by
    have hy := h.poll hx
    have hz := k.poll (by rwa [hy])
    rw [hz, hy]

theorem CRing.After.refl (x : CRing) : x.After x := ⟨rfl, fun _ => rfl⟩

theorem CRing.After.trans {x y z : CRing} (h : x.After y) (k : y.After z) : x.After z where
  rest := by rw [k.rest, h.rest]
  write hx := (k.write (by rwa [h.write hx])).trans (h.write hx)

theorem Station.After.refl (x : Station) : x.After x := ⟨rfl, .inl rfl⟩

theorem Station.After.trans {x y z : Station} (h : x.After y) (k : y.After z) : x.After z where
  rest := by rw [k.rest, h.rest]
  notice := by
    have := h.notice
    have := k.notice
    grind

theorem Admin.After.refl (x : Admin) : x.After x := ⟨.inl rfl, fun _ => rfl, fun _ => rfl, fun _ => rfl⟩

theorem Admin.After.trans {x y z : Admin} (h : x.After y) (k : y.After z) : x.After z := by
  have hp := h.phase
  have kp := k.phase
  have hb := h.busy
  have kb := k.busy
  refine ⟨by grind, fun hx => ?_, fun hx => ?_, fun hx => by grind⟩
  · rw [k.record (by grind), h.record hx]
  · rw [k.decided (by grind), h.decided hx]

theorem State.Kept.refl (s : State) : s.Kept s where
  device := rfl
  enable := rfl
  intEnable := rfl
  bootAddr := rfl
  resetCause := rfl
  faultCode := rfl
  postError := rfl
  intcause := rfl
  deviceTime := rfl
  loadAddr := rfl
  pool := rfl
  hostMem := rfl
  pending := rfl
  rings _ := .inl rfl
  noCRings _ h := h
  crings _ x h := ⟨x, h, .refl x⟩
  freeStations _ h := h
  stations _ x h := ⟨x, h, .refl x⟩
  lines _ := .refl _
  admin := .refl _

theorem State.Kept.trans {s t u : State} (h : s.Kept t) (k : t.Kept u) : s.Kept u where
  device := k.device.trans h.device
  enable := k.enable.trans h.enable
  intEnable := k.intEnable.trans h.intEnable
  bootAddr := k.bootAddr.trans h.bootAddr
  resetCause := k.resetCause.trans h.resetCause
  faultCode := k.faultCode.trans h.faultCode
  postError := k.postError.trans h.postError
  intcause := k.intcause.trans h.intcause
  deviceTime := k.deviceTime.trans h.deviceTime
  loadAddr := k.loadAddr.trans h.loadAddr
  pool := k.pool.trans h.pool
  hostMem := k.hostMem.trans h.hostMem
  pending := k.pending.trans h.pending
  rings r := by
    rcases k.rings r with e | ⟨x, hx, hd, e⟩
    · simpa only [e] using h.rings r
    · refine .inr ?_
      rcases h.rings r with e' | ⟨y, hy, hd', e'⟩
      · exact ⟨x, e' ▸ hx, hd, e⟩
      · exact ⟨y, hy, hd', e⟩
  noCRings r hr := k.noCRings r (h.noCRings r hr)
  crings r x hx := by
    obtain ⟨y, hy, hxy⟩ := h.crings r x hx
    obtain ⟨z, hz, hyz⟩ := k.crings r y hy
    exact ⟨z, hz, hxy.trans hyz⟩
  freeStations e he := k.freeStations e (h.freeStations e he)
  stations e x hx := by
    obtain ⟨y, hy, hxy⟩ := h.stations e x hx
    obtain ⟨z, hz, hyz⟩ := k.stations e y hy
    exact ⟨z, hz, hxy.trans hyz⟩
  lines l := (h.lines l).trans (k.lines l)
  admin := h.admin.trans k.admin

/-! ## One part replaced -/

theorem State.Kept.setLine {s : State} {l : LineId} {x : Line} (h : (s.line l).After x) : s.Kept (s.setLine l x) :=
  { State.Kept.refl s with
    lines := fun k => by
      by_cases e : k = l
      · subst e; simpa using h
      · rw [s.line_setLine_ne x e]; exact .refl _ }

theorem State.Kept.modLine {s : State} {l : LineId} {f : Line → Line} (h : (s.line l).After (f (s.line l))) :
    s.Kept (s.modLine l f) :=
  State.Kept.setLine h

theorem State.Kept.modSlot {s : State} {l : LineId} {i : SlotId} {f : Slot → Slot} (h : ∀ x ∈ s.slot l i, x.After (f x)) :
    s.Kept (s.modSlot l i f) := by
  refine State.Kept.modLine { Line.After.refl (s.line l) with
    exchange := ⟨.inl rfl, .inl rfl, fun _ _ => by simp [Line.modSlot, Line.setSlot]⟩
    freeSlots := fun j hj => ?_
    slots := fun j a ha => ?_ }
  · by_cases e : j = i
    · subst e; simp [hj]
    · rw [Line.slot_modSlot_ne _ f e]; exact hj
  · by_cases e : j = i
    · subst e; exact ⟨f a, by simp [Option.mem_def.mp ha], h a ha⟩
    · exact ⟨a, by rwa [Line.slot_modSlot_ne _ f e], .refl a⟩

theorem State.Kept.setCRing {s : State} {r : CRingId} {c d : CRing} (hc : s.cring r = some c) (h : c.After d) :
    s.Kept (s.setCRing r (some d)) :=
  { State.Kept.refl s with
    noCRings := fun q hq => by
      by_cases e : q = r
      · subst e; simp [hc] at hq
      · rwa [s.cring_setCRing_ne _ e]
    crings := fun q x hx => by
      by_cases e : q = r
      · subst e
        obtain rfl : c = x := by simpa [hc] using hx
        exact ⟨d, by simp, h⟩
      · exact ⟨x, by rwa [s.cring_setCRing_ne _ e], .refl x⟩ }

theorem State.Kept.modCRing {s : State} {r : CRingId} {f : CRing → CRing} (h : ∀ c ∈ s.cring r, c.After (f c)) :
    s.Kept (s.modCRing r f) := by
  unfold State.modCRing
  cases hc : s.cring r with
  | some c => exact State.Kept.setCRing hc (h c hc)
  | none =>
    have : s.setCRing r none = s := by
      have : vput s.crings r none = s.crings := vget_ext fun q => by
        rw [vget_vput]
        split
        · next e => subst e; exact hc.symm
        · rfl
      rw [State.setCRing, this]
    rw [Option.map_none, this]
    exact .refl s

theorem State.Kept.reserve (s : State) (r : CRingId) : s.Kept (s.reserve r) :=
  State.Kept.modCRing fun _ _ => ⟨rfl, fun _ => rfl⟩

theorem State.Kept.requestWrite (s : State) (r : CRingId) (w : Writer) : s.Kept (s.requestWrite r w) :=
  State.Kept.modCRing fun _ _ => ⟨rfl, fun _ => rfl⟩

theorem Line.After.placeGained (r : CRingId) (x : Line) : x.After (x.placeGained r) := by
  rw [Line.placeGained_eq]
  exact { Line.After.refl x with poll := fun _ => rfl, exchange := ⟨.inl rfl, .inl rfl, fun _ _ => by simp⟩ }

theorem State.Kept.gainPlace (s : State) (r : CRingId) : s.Kept (s.gainPlace r) :=
  { State.Kept.refl s with lines := fun l => by rw [s.line_gainPlace]; exact .placeGained r _ }

theorem State.Kept.returnReservation (s : State) (r : CRingId) : s.Kept (s.returnReservation r) :=
  .trans (.modCRing (f := fun c => { c with reserved := c.reserved - 1 }) fun _ _ => ⟨rfl, fun _ => rfl⟩) (.gainPlace _ r)

theorem State.Kept.setStation {s : State} {e : EntryId} {x y : Station} (hx : s.station e = some x) (h : x.After y) :
    s.Kept (s.setStation e (some y)) :=
  { State.Kept.refl s with
    freeStations := fun f hf => by
      by_cases k : f = e
      · subst k; simp [hx] at hf
      · rwa [s.station_setStation_ne _ k]
    stations := fun f z hz => by
      by_cases k : f = e
      · subst k
        obtain rfl : x = z := by simpa [hx] using hz
        exact ⟨y, by simp, h⟩
      · exact ⟨z, by rwa [s.station_setStation_ne _ k], .refl z⟩ }

theorem State.Kept.ofAdmin {s : State} {a : Admin} (h : s.admin.After a) : s.Kept { s with admin := a } :=
  { State.Kept.refl s with admin := h }

theorem State.Kept.ofChoices (s : State) (n : Nat) : s.Kept { s with choices := n } := { State.Kept.refl s with }

theorem State.Kept.dropRing {s : State} {r : RingId} {x : SubRing} (hx : s.ring r = some x) (hd : x.state = .draining) :
    s.Kept (s.setRing r none) :=
  { State.Kept.refl s with
    rings := fun q => by
      by_cases e : q = r
      · subst e; exact .inr ⟨x, hx, hd, by simp⟩
      · exact .inl (s.ring_setRing_ne none e) }

/-! ## One act -/

/-- A slot that would enter READY from WAITING is changed in its state and outcome alone (R47, R49, R166). -/
theorem Slot.After.enterReady {x : Slot} (hx : x.state = .waiting) (graceful : Bool) (st : Option Station) :
    x.After (x.enterReady graceful st) := by
  unfold Slot.enterReady
  split
  · exact ⟨rfl, by simp [hx], .inl rfl, .inl rfl⟩
  · split
    · exact ⟨rfl, by simp [hx, Slot.finishPlain, Slot.finish], .inr ⟨hx, rfl⟩, .inl rfl⟩
    · split <;> exact ⟨rfl, by simp [hx], .inl rfl, .inl rfl⟩

theorem State.Kept.enterReady {s : State} {l : LineId} {i : SlotId} (h : ∀ x ∈ s.slot l i, x.state = .waiting) :
    s.Kept (s.enterReady l i) := by
  unfold State.enterReady
  split
  · exact .refl s
  · exact .modSlot fun x hx => .enterReady (h x hx) _ _

theorem Line.fenceOpen_waiting {x : Line} {i : SlotId} (h : x.fenceOpen i = true) : ∀ y ∈ x.slot i, y.state = .waiting := by
  intro y hy
  simp only [Line.fenceOpen, Option.mem_def.mp hy, Bool.and_eq_true, beq_iff_eq] at h
  exact h.1

/-- A line that comes to STOPPED from STOPPING or FAULTED (R68, R166). -/
theorem Line.After.enterStopped {x : Line} (h : x.run = .stopping ∨ x.run = .faulted) : x.After x.enterStopped :=
  { Line.After.refl x with
    exchange :=
      { run := .inr ⟨rfl, h⟩
        phase := .inr (.inr ⟨rfl, by grind, rfl⟩)
        quiet := fun e _ => by simp only [Line.enterStopped] at e; grind }
    rxd := rfl
    poll := fun _ => rfl }

/-- A grant of an idle line changes its exchange, its attempts counter and nothing else (R6, R75). -/
theorem Line.After.beginExchange {x : Line} (h : x.phase = some .idle) (now : Nat) (a : Attempt) :
    x.After (x.beginExchange now a) := by
  have hphase : (x.beginExchange now a).phase = some .lead ∨ (x.beginExchange now a).phase = some .sending := by
    unfold Line.beginExchange
    split
    · split
      · exact .inr (by simp [Line.beginSending, Line.beginCharacter, *])
      · exact .inl rfl
    · exact .inl rfl
  have hrest : x.beginExchange now a = { x with
      phase := (x.beginExchange now a).phase, attempt := some a, sentPos := 0, echoes := 0, conflict := false, rx := .empty
      timeoutHeld := false, fillers := 0, timers := (x.beginExchange now a).timers
      counters := { x.counters with attempts := (x.beginExchange now a).counters.attempts }
      pins := { (x.beginExchange now a).pins with rxd := x.pins.rxd } } := by
    unfold Line.beginExchange
    split
    · split
      · simp [Line.beginSending, Line.beginCharacter, *]
      · rfl
    · rfl
  generalize x.beginExchange now a = y at *
  exact
    { Line.After.refl x with
      exchange :=
        { run := .inl (by rw [hrest])
          phase := .inr (.inl ⟨h, hphase⟩)
          quiet := fun _ e => by rw [h] at e; simp [e] at hphase }
      config := by rw [hrest]
      lastFault := by rw [hrest]
      conflictCount := by rw [hrest]
      nextAge := by rw [hrest]
      rxd := by rw [hrest]
      counters := by rw [hrest]
      freeSlots := fun i hi => by rw [hrest]; exact hi
      slots := fun i b hb => ⟨b, by rw [hrest]; exact hb, .refl b⟩
      read := .inl (by rw [hrest])
      txnWriter := .inl (by rw [hrest])
      notice := .inl (by rw [hrest])
      linePending := .inl (by rw [hrest])
      noticeQueue := by rw [hrest]
      delivery := by rw [hrest]
      poll := fun _ => by rw [hrest] }

theorem State.Kept.requestTxn {s : State} {l : LineId} : s.Kept (s.requestTxn l) := by
  unfold State.requestTxn
  split
  · exact .refl s
  · rename_i i hi
    have hw : (s.line l).txnWriter = none := by
      unfold Line.nextTxn at hi
      split at hi
      · cases hi
      · assumption
    split
    · exact .refl s
    · exact .trans (.modLine { Line.After.refl (s.line l) with
        exchange := ⟨.inl rfl, .inl rfl, fun _ _ => by simp⟩
        txnWriter := .inr hw }) (.requestWrite _ _ _)

theorem State.Kept.dropPoll {s : State} {l : LineId} (h : (s.line l).scanner.state = .holding) : s.Kept (s.dropPoll l) := by
  unfold State.dropPoll
  dsimp only
  split
  · exact .trans (.modLine { Line.After.refl (s.line l) with
      exchange := ⟨.inl rfl, .inl rfl, fun _ _ => by simp⟩
      poll := fun e => by simp [h] at e }) (.returnReservation _ _)
  · simp_all
  · exact .refl s

theorem State.Kept.scanClaimPlace {s : State} {l : LineId} (h : (s.line l).scanner.state = .idle) :
    s.Kept (s.scanClaimPlace l) := by
  unfold State.scanClaimPlace
  split
  · exact .refl s
  · split
    · exact .trans (.reserve s _) (.modLine { Line.After.refl (s.line l) with
        exchange := ⟨.inl rfl, .inl rfl, fun _ _ => by simp⟩
        poll := fun e => by simp [h] at e })
    · exact .modLine { Line.After.refl (s.line l) with
        exchange := ⟨.inl rfl, .inl rfl, fun _ _ => by simp⟩
        counters := rfl
        poll := fun _ => rfl }

theorem State.pollCandidate_some {s : State} {l : LineId} {c : Candidate} (h : s.pollCandidate l = some c) :
    (s.line l).run = .running ∧ (s.line l).scanner.state = .holding ∧ ∃ e, s.scanChoice l = some e ∧ c = .poll e := by
  simp only [State.pollCandidate, Bool.and_eq_true, beq_iff_eq] at h
  split at h
  · next hr =>
    obtain ⟨e, he, rfl⟩ := Option.map_eq_some_iff.mp h
    exact ⟨hr.1, hr.2, e, he, rfl⟩
  · cases h

/-- What the Arbiter's candidate came from: a class's choice or the Scanner's poll (R50). -/
theorem State.arbiterChoice_some {s : State} {l : LineId} {k : Candidate} (h : s.arbiterChoice l = some k) :
    (∃ c i, s.grantInClass l c = some (c, i) ∧ k = .slot c i) ∨ s.pollCandidate l = some k := by
  have hclass : ∀ c, ((s.grantInClass l c).map fun p => Candidate.slot p.1 p.2) = some k →
      ∃ c i, s.grantInClass l c = some (c, i) ∧ k = .slot c i := by
    intro c hc
    obtain ⟨p, hp, rfl⟩ := Option.map_eq_some_iff.mp hc
    obtain ⟨i, -, rfl⟩ := Option.map_eq_some_iff.mp hp
    exact ⟨c, i, hp, rfl⟩
  simp only [State.arbiterChoice, Option.orElse_eq_orElse, Option.orElse_eq_or, Option.or_eq_some_iff] at h
  grind

/-- The oldest of the slots given is one of them (R51, R60). -/
theorem Line.oldest_mem {x : Line} {is : List SlotId} {i : SlotId} (h : x.oldest is = some i) : i ∈ is := by
  have step : ∀ b j, x.olderSlot b j = b ∨ x.olderSlot b j = some j := by
    intro b j
    unfold Line.olderSlot
    split
    · exact .inr rfl
    · split
      · split
        · exact .inr rfl
        · exact .inl rfl
      · exact .inr rfl
    · exact .inl rfl
  have key : ∀ (is : List SlotId) (b : Option SlotId), is.foldl x.olderSlot b = some i → b = some i ∨ i ∈ is := by
    intro is
    induction is with
    | nil => exact fun b h => .inl h
    | cons j is ih =>
      intro b hb
      rcases ih _ hb with e | e
      · rcases step b j with k | k
        · exact .inl (k ▸ e)
        · exact .inr (by simp_all)
      · exact .inr (List.mem_cons_of_mem j e)
  simpa using key is none h

theorem mem_allFin {n : Nat} {p : Fin n → Bool} {i : Fin n} : i ∈ allFin p ↔ p i = true := by
  simp [allFin]

/-- The slot a class's choice names may be granted, and its ring has the class (R51). -/
theorem State.grantInClass_some {s : State} {l : LineId} {c d : ClassId} {i : SlotId} (h : s.grantInClass l c = some (d, i)) :
    d = c ∧ ∃ r ∈ roundRobin (vget (s.line l).arbLast c), s.ringClass c r = true ∧ s.grantEligibleOf l r i = true := by
  obtain ⟨j, hj, e⟩ := Option.map_eq_some_iff.mp h
  obtain ⟨rfl, rfl⟩ := Prod.mk.inj e
  obtain ⟨r, hr, hrj⟩ := List.exists_of_findSome?_eq_some hj
  split at hrj
  · next hc => exact ⟨rfl, r, hr, hc, mem_allFin.mp (Line.oldest_mem hrj)⟩
  · cases hrj

theorem State.grantEligible_ready {s : State} {l : LineId} {i : SlotId} (h : s.grantEligible l i = true) :
    ∀ x ∈ s.slot l i, x.state = .ready := by
  intro x hx
  simp only [State.grantEligible, Option.mem_def.mp hx, Bool.and_eq_true, beq_iff_eq] at h
  exact h.1.1

/-- A grant to a slot's ring in its class (R51, R52). -/
theorem Line.After.grantTo {x : Line} (h : x.phase = some .idle) (now : Nat) (a : Attempt) (last : Vector (Option RingId) 4) :
    x.After ({ x with arbLast := last }.beginExchange now a) :=
  .trans (y := { x with arbLast := last })
    { Line.After.refl x with exchange := ⟨.inl rfl, .inl rfl, fun _ _ => by simp⟩ } (.beginExchange (x := { x with arbLast := last }) h now a)

theorem State.Kept.grantSlot {s : State} {l : LineId} {c : ClassId} {i : SlotId} (hp : (s.line l).phase = some .idle)
    (hi : ∀ x ∈ s.slot l i, x.state = .ready) : s.Kept (s.grantSlot l c i) := by
  unfold State.grantSlot
  split
  · exact .refl s
  · next x hx =>
    have hslot : s.Kept (s.modSlot l i fun y => { y with state := .active, syncAttempt := (s.slotAttempt l i x).sync }) :=
      .modSlot fun y hy => ⟨rfl, .inr (.inr ⟨hi y hy, rfl⟩), .inl rfl, .inr ⟨by simp [hi y hy], rfl⟩⟩
    refine hslot.trans (.modLine (.grantTo ?_ _ _ _))
    simpa [State.modSlot, Line.modSlot, Line.setSlot] using hp

theorem State.Kept.grantPoll {s : State} {l : LineId} {e : EntryId} (hp : (s.line l).phase = some .idle)
    (hs : (s.line l).scanner.state = .holding) : s.Kept (s.grantPoll l e) := by
  unfold State.grantPoll
  split
  · exact .refl s
  · refine .modLine (.trans ?_ (.beginExchange ?_ _ _))
    · exact { Line.After.refl (s.line l) with
        exchange := ⟨.inl rfl, .inl rfl, fun _ _ => by simp⟩
        poll := fun h => by simp [hs] at h }
    · exact hp

theorem State.Kept.grantLine {s : State} {l : LineId} (hp : (s.line l).phase = some .idle) : s.Kept (s.grantLine l) := by
  unfold State.grantLine
  split
  · next c i h =>
    rcases State.arbiterChoice_some h with ⟨d, j, hj, e⟩ | h'
    · obtain ⟨rfl, rfl⟩ : c = d ∧ i = j := by simpa using e
      obtain ⟨-, r, -, -, he⟩ := State.grantInClass_some hj
      simp only [State.grantEligibleOf, Bool.and_eq_true] at he
      exact .grantSlot hp (State.grantEligible_ready he.1)
    · obtain ⟨-, -, e, -, h⟩ := State.pollCandidate_some h'
      cases h
  · next e h =>
    rcases State.arbiterChoice_some h with ⟨d, j, -, e⟩ | h'
    · cases e
    · exact .grantPoll hp (State.pollCandidate_some h').2.1
  · exact .refl s

/-- What the notice writer's take leaves, and what it takes (R32, R87, R117). -/
theorem State.takeNotice_kept {s t : State} {l : LineId} {rec : CompRecord} (h : s.takeNotice l = some (rec, t)) :
    s.Kept t ∧ (t.line l).notice = (s.line l).notice := by
  simp only [State.takeNotice] at h
  split at h
  · cases h
    exact ⟨.setLine { Line.After.refl (s.line l) with
      exchange := ⟨.inl rfl, .inl rfl, fun _ _ => by simp⟩
      linePending := .inr rfl }, by simp⟩
  · split at h
    · cases h
    · next e rest hq =>
      split at h
      · cases h
      · next x hx =>
        cases h
        refine ⟨.trans (t := s.setLine l { s.line l with noticeQueue := rest }) (.setLine { Line.After.refl (s.line l) with
          exchange := ⟨.inl rfl, .inl rfl, fun _ _ => by simp⟩
          noticeQueue := hq ▸ List.suffix_cons e rest }) (.setStation (x := x) hx ⟨rfl, .inr ⟨rfl, rfl⟩⟩), by simp⟩

theorem State.Kept.startNotice {s : State} {l : LineId} {r : CRingId} (hn : (s.line l).notice = none) :
    s.Kept (s.startNotice l r) := by
  unfold State.startNotice
  split
  · exact .refl s
  · next rec t h =>
    obtain ⟨hk, ht⟩ := State.takeNotice_kept h
    have hnotice : (t.reserve r).Kept ((t.reserve r).modLine l fun x => { x with notice := some ⟨r, rec⟩ }) :=
      .modLine { Line.After.refl ((t.reserve r).line l) with
        exchange := ⟨.inl rfl, .inl rfl, fun _ _ => by simp⟩
        notice := .inr (ht.trans hn) }
    exact hk.trans (.trans (.reserve t r) (hnotice.trans (.requestWrite _ _ _)))

theorem State.Kept.beginWrite {s : State} {r : CRingId} (h : s.mayStartWrite r = true) : s.Kept (s.beginWrite r) := by
  unfold State.beginWrite
  split
  · exact .refl s
  · next c hc =>
    have hw : c.write = none := by
      simp only [State.mayStartWrite, hc, Bool.and_eq_true, Option.isNone_iff_eq_none] at h
      exact h.1
    split
    · exact .refl s
    · split <;> exact .setCRing hc ⟨rfl, fun e => absurd hw e⟩

theorem State.intakeChoice_some {s : State} {l : LineId} {c : ClassId} {r : RingId} (h : s.intakeChoice l = some (c, r)) :
    r ∈ roundRobin (vget (s.line l).intakeLast c) ∧ s.ringClass c r = true ∧ s.intakeEligible l r = true := by
  obtain ⟨d, -, hd⟩ := List.exists_of_findSome?_eq_some h
  obtain ⟨q, hq, e⟩ := Option.map_eq_some_iff.mp hd
  obtain ⟨rfl, rfl⟩ := Prod.mk.inj e
  have := List.find?_some hq
  rw [Bool.and_eq_true] at this
  exact ⟨List.mem_of_find?_eq_some hq, this.1, this.2⟩

theorem State.intakeEligible_iff {s : State} {l : LineId} {r : RingId} :
    s.intakeEligible l r = true ↔ ∃ x ∈ s.ring r, s.device = .running ∧ x.state = .active ∧ x.line = some l ∧ x.head ≠ x.tail
      ∧ (s.line l).run = .running ∧ (∃ i, s.slot l i = none) ∧ (s.line l).read = none ∧ x.inFlight < Config.slotsPerRing
      ∧ x.fenced = false ∧ s.canReserve x.cring = true := by
  unfold State.intakeEligible
  split
  · next x hx => simp [hx, State.slot, and_assoc]
  · next hx => simp [hx]

theorem State.Kept.beginIntake {s : State} {l : LineId} : s.Kept (s.beginIntake l) := by
  unfold State.beginIntake
  split
  · exact .refl s
  · next c r h =>
    obtain ⟨-, -, he⟩ := State.intakeChoice_some h
    obtain ⟨x, hx, -, -, -, -, -, -, hread, -⟩ := State.intakeEligible_iff.mp he
    rw [Option.mem_def.mp hx]
    exact .trans (.reserve s _) (.modLine { Line.After.refl (s.line l) with
      exchange := ⟨.inl rfl, .inl rfl, fun _ _ => by simp⟩
      read := .inr hread })

theorem State.Kept.beginAdminRead {s : State} (h : s.admin.phase = .idle) : s.Kept s.beginAdminRead :=
  .trans (.reserve s 0) (.ofAdmin
    { phase := .inr (.inl ⟨h, rfl⟩), record := fun e => absurd h e, decided := fun (e : s.admin.phase = _) => by simp [h] at e
      busy := fun (e : s.admin.phase = _ ∨ s.admin.phase = _) => by simp [h] at e })

theorem State.Kept.adminRequest {s : State} (h : s.admin.phase = .completing) : s.Kept s.adminRequest :=
  .trans (.requestWrite s 0 .admin) (.ofAdmin
    { phase := .inl rfl, record := fun _ => rfl, decided := fun _ => rfl
      busy := fun (e : s.admin.phase = _ ∨ s.admin.phase = _) => by simp [h] at e })

theorem State.adminMet_some {s : State} {v : Status × Nat} (h : s.adminMet = some v) :
    s.admin.phase = .waiting ∧ ∃ c, s.admin.command = some c ∧ s.waitMet c = some v := by
  unfold State.adminMet at h
  split at h
  · next c hp hc => exact ⟨hp, c, hc, h⟩
  · cases h

/-- An abort stop that found its line FAULTED changes that line alone (R166). -/
theorem State.stopFaultedForAbort_eq (s : State) :
    s.stopFaultedForAbort = s ∨ ∃ l, (s.line l).run = .faulted ∧ s.stopFaultedForAbort = s.modLine l Line.enterStopped := by
  unfold State.stopFaultedForAbort
  split
  · split
    · split
      · exact .inr ⟨_, ‹_›, rfl⟩
      · exact .inl rfl
    · exact .inl rfl
  · exact .inl rfl

theorem State.Kept.endAdminWait (s : State) : s.Kept s.endAdminWait := by
  unfold State.endAdminWait
  split
  · next st v h =>
    obtain ⟨hp, -⟩ := State.adminMet_some h
    have hdecide : ∀ t : State, t.admin = s.admin → t.Kept (t.adminDecide st v) := fun t e => .ofAdmin
      { phase := .inr (.inr ⟨e ▸ hp, rfl⟩)
        record := fun _ => by cases t.admin.command <;> rfl
        decided := fun (h : t.admin.phase = _) => by simp [e, hp] at h
        busy := fun (h : t.admin.phase = _ ∨ t.admin.phase = _) => by simp [e, hp] at h }
    rcases s.stopFaultedForAbort_eq with e | ⟨l, hl, e⟩
    · rw [e]; exact hdecide s rfl
    · rw [e]; exact .trans (.modLine (.enterStopped (.inr hl))) (hdecide _ rfl)
  · exact .refl s

/-- Every enabled act but the arrival in OFF leaves the rest of the state as it is. -/
theorem State.Kept.perform {s : State} {a : Act} (h : s.enabled a = true) (ha : a ≠ .reachOff) : s.Kept (s.perform a) := by
  cases a with
  | fence l i =>
    simp only [State.enabled, Bool.and_eq_true] at h
    exact .enterReady (Line.fenceOpen_waiting h.2)
  | drain r =>
    simp only [State.enabled, Bool.and_eq_true, State.drained] at h
    split at h
    · next x hx =>
      simp only [Bool.and_eq_true, beq_iff_eq] at h
      exact .dropRing hx h.2.1.1
    · simp at h
  | lineStopped l =>
    simp only [State.enabled, Bool.and_eq_true, Line.stopReached, Line.gracefulStop, beq_iff_eq] at h
    exact .modLine (.enterStopped (.inl h.2.1.1.1.1))
  | adminEnd => exact .endAdminWait s
  | reachOff => exact absurd rfl ha
  | txn l => exact .requestTxn
  | adminWrite =>
    simp only [State.enabled, Bool.and_eq_true, beq_iff_eq] at h
    exact .adminRequest h.1.2
  | startWrite r =>
    simp only [State.enabled, Bool.and_eq_true] at h
    exact .beginWrite h.2
  | intake l => exact .beginIntake
  | adminRead =>
    simp only [State.enabled, State.adminMayRead, Bool.and_eq_true, beq_iff_eq] at h
    exact .beginAdminRead h.1.1.2
  | scanReturn l =>
    simp only [State.enabled, State.scanMustReturn, Bool.and_eq_true, beq_iff_eq] at h
    exact .dropPoll h.1.2
  | scanClaim l =>
    simp only [State.enabled, State.scanMayClaim, Bool.and_eq_true, beq_iff_eq] at h
    exact .scanClaimPlace h.1.1.1.2
  | grant l =>
    simp only [State.enabled, State.mayGrant, Bool.and_eq_true, beq_iff_eq] at h
    exact .grantLine h.2.1.1
  | notice l =>
    simp only [State.enabled, State.noticeMayStart, Bool.and_eq_true, Option.isNone_iff_eq_none] at h
    change s.Kept (s.writeNotice l)
    unfold State.writeNotice
    split
    · exact .startNotice h.1.1.1.2
    · exact .refl s

/-! ## The arrival in OFF (R171, R173, R175) -/

/-- A part with nothing written or being written has nothing to cut off (R176, R178). -/
theorem State.cutWrites_of_nothing {s : State} (hslots : ∀ l i, s.slot l i = none) (hd : ∀ l, (s.line l).scanner.delivery = none)
    (ha : s.admin.phase ≠ .reporting) (hc : ∀ r, s.cring r = none) : s.cutWrites = s := by
  have hline : ∀ l, s.cutLine l = s := by
    intro l
    unfold State.cutLine
    rw [List.foldl_fixed' fun i => by rw [hslots l i]]
    simp only [hd l]
  have hreport : s.cutReport = s := by
    unfold State.cutReport
    split
    · contradiction
    · rfl
  have hcring : ∀ r, s.cutCompletion r = s := fun r => by rw [State.cutCompletion, hc r]
  simp only [State.cutWrites, List.foldl_fixed' hline, hreport, List.foldl_fixed' hcring]

theorem State.abandonForFault_of_none {s : State} (h : ∀ l, (s.line l).attempt = none) (ls : List LineId) :
    ls.foldl State.abandonForFault s = s :=
  List.foldl_fixed' (fun l => by rw [State.abandonForFault, h l]) ls

/-- A part with no context that faults: the fault shows in its registers alone (R176). -/
theorem State.deviceFault_of_reset {s : State} (hl : ∀ l, ∃ v, s.line l = Line.reset v) (hc : ∀ r, s.cring r = none)
    (ha : s.admin = .reset) (code : FaultCode) :
    s.deviceFault code =
      { s with device := .faulted, faultCode := code, loadAddr := none, intcause := s.intcause ||| causeMask faultBit } := by
  have hcut : s.cutWrites = s := by
    refine s.cutWrites_of_nothing (fun l i => ?_) (fun l => ?_) (by simp [ha, Admin.reset]) hc
    · obtain ⟨v, hv⟩ := hl l
      simp [State.slot, hv, Line.slot, Line.reset]
    · obtain ⟨v, hv⟩ := hl l
      simp [hv, Line.reset, Scanner.reset]
  have hlines : vmap Line.deviceFaulted s.lines = s.lines := vget_ext fun l => by
    obtain ⟨v, hv⟩ := hl l
    rw [vget_vmap]
    change (s.line l).deviceFaulted = s.line l
    rw [hv]; rfl
  have hcrings : vmap (Option.map CRing.deviceFaulted) s.crings = s.crings := vget_ext fun r => by
    rw [vget_vmap, show vget s.crings r = none from hc r, Option.map_none]
  have hatt : ∀ l, (s.line l).attempt = none := fun l => by
    obtain ⟨v, hv⟩ := hl l
    simp [hv, Line.reset]
  simp only [State.deviceFault, hcut, State.abandonForFault_of_none hatt, State.setCause_lines, State.setCause_crings,
    State.setCause_admin, hlines, hcrings, ha]
  simp [State.setCause, Admin.deviceFaulted, Admin.reset]

theorem State.reachOff_line (s : State) (cause : ResetCause) (l : LineId) :
    (s.reachOff cause).line l = Line.reset (s.line l).pins.rxd :=
  vget_vmap _ _ _

theorem State.reachOff_ring (s : State) (cause : ResetCause) (r : RingId) : (s.reachOff cause).ring r = none :=
  vget_replicate _ _

theorem State.reachOff_cring (s : State) (cause : ResetCause) (r : CRingId) : (s.reachOff cause).cring r = none :=
  vget_replicate _ _

theorem State.reachOff_station (s : State) (cause : ResetCause) (e : EntryId) : (s.reachOff cause).station e = none :=
  vget_replicate _ _

/-- The entry to LOADING of a part without contexts: the address is fixed, or the part faults at it (R173). -/
theorem State.beginLoad_of_reset {s : State} (hl : ∀ l, ∃ v, s.line l = Line.reset v) (hc : ∀ r, s.cring r = none)
    (ha : s.admin = .reset) :
    s.beginLoad = if bootAddrOk s.bootAddr then { s with device := .loading, faultCode := .none, loadAddr := some s.bootAddr }
      else { s with
        device := .faulted, faultCode := .badBoot, loadAddr := none, intcause := s.intcause ||| causeMask faultBit } := by
  unfold State.beginLoad
  dsimp only
  split
  · rfl
  · exact State.deviceFault_of_reset (s := { s with device := .loading, faultCode := .none, loadAddr := some s.bootAddr }) hl hc ha _

/-- A part in DISABLING that has nothing left in hand (R175). -/
theorem State.OffFrom.endDisable (s : State) : s.OffFrom s.endDisable := by
  have hload := (s.reachOff .disable).beginLoad_of_reset (fun l => ⟨_, s.reachOff_line .disable l⟩) (s.reachOff_cring .disable) rfl
  have h : s.endDisable = if s.enable then (s.reachOff .disable).beginLoad else s.reachOff .disable := rfl
  rw [hload] at h
  have base : ∀ (d : DeviceState) (c : FaultCode) (a : Option Addr) (i : BitVec 6),
      (s.enable = false → d = .off ∧ c = s.faultCode ∧ a = none ∧ i = causesAtOff s.intcause) →
      (s.enable = true → bootAddrOk s.bootAddr = true →
        d = .loading ∧ c = .none ∧ a = some s.bootAddr ∧ i = causesAtOff s.intcause) →
      (s.enable = true → bootAddrOk s.bootAddr = false →
        d = .faulted ∧ c = .badBoot ∧ a = none ∧ i = causesAtOff s.intcause ||| causeMask faultBit) →
      s.OffFrom { s.reachOff .disable with device := d, faultCode := c, loadAddr := a, intcause := i } :=
    fun d c a i h0 h1 h2 =>
      { enable := rfl, intEnable := rfl, bootAddr := rfl, resetCause := rfl, postError := rfl, deviceTime := rfl
        hostMem := rfl, pending := rfl, rings := s.reachOff_ring .disable, pool := rfl, crings := s.reachOff_cring .disable
        stations := s.reachOff_station .disable, admin := rfl, lines := s.reachOff_line .disable
        stays := h0, loads := h1, badBoot := h2 }
  split at h
  · next he =>
    split at h
    · next hb =>
      rw [h]
      exact base _ _ _ _ (by simp [he]) (fun _ _ => ⟨rfl, rfl, rfl, rfl⟩) (fun _ e => by simp_all [State.reachOff])
    · next hb =>
      rw [h]
      exact base _ _ _ _ (by simp [he]) (fun _ e => by simp_all [State.reachOff]) (fun _ _ => ⟨rfl, rfl, rfl, rfl⟩)
  · next he =>
    rw [h]
    exact base .off s.faultCode none (causesAtOff s.intcause) (fun _ => ⟨rfl, rfl, rfl, rfl⟩) (by simp [he]) (by simp [he])

theorem State.OffFrom.of_kept {s t u : State} (h : s.Kept t) (k : t.OffFrom u) : s.OffFrom u where
  enable := k.enable.trans h.enable
  intEnable := k.intEnable.trans h.intEnable
  bootAddr := k.bootAddr.trans h.bootAddr
  resetCause := k.resetCause
  postError := k.postError
  deviceTime := k.deviceTime.trans h.deviceTime
  hostMem := k.hostMem.trans h.hostMem
  pending := k.pending.trans h.pending
  rings := k.rings
  pool := k.pool
  crings := k.crings
  stations := k.stations
  admin := k.admin
  lines l := by rw [k.lines l, (h.lines l).rxd]
  stays := by rw [← h.enable, ← h.faultCode, ← h.intcause]; exact k.stays
  loads := by rw [← h.enable, ← h.bootAddr, ← h.intcause]; exact k.loads
  badBoot := by rw [← h.enable, ← h.bootAddr, ← h.intcause]; exact k.badBoot

/-! ## All the acts of a step -/

/-- In OFF, LOADING and FAULTED no act is enabled. -/
theorem State.enabled_working {s : State} {a : Act} (h : s.enabled a = true) : s.working = true := by
  have running : ∀ {b : Bool}, s.device = .running → b = true → s.working = true := fun hr _ => by simp [State.working, hr]
  cases a with
  | fence l i => simp only [State.enabled, Bool.and_eq_true] at h; exact h.1
  | drain r => simp only [State.enabled, Bool.and_eq_true] at h; exact h.1
  | lineStopped l => simp only [State.enabled, Bool.and_eq_true] at h; exact h.1
  | adminEnd => simp only [State.enabled, Bool.and_eq_true] at h; exact h.1
  | reachOff => simp_all [State.enabled, State.working]
  | txn l => simp only [State.enabled, Bool.and_eq_true] at h; exact h.1
  | adminWrite => simp only [State.enabled, Bool.and_eq_true] at h; exact h.1.1
  | startWrite r => simp only [State.enabled, Bool.and_eq_true] at h; exact h.1
  | intake l =>
    simp only [State.enabled, Option.isSome_iff_exists] at h
    obtain ⟨⟨c, r⟩, hp⟩ := h
    obtain ⟨x, -, hr, -⟩ := State.intakeEligible_iff.mp (State.intakeChoice_some hp).2.2
    exact running hr rfl
  | adminRead => simp only [State.enabled, State.adminMayRead, Bool.and_eq_true, beq_iff_eq] at h; exact running h.1.1.1 rfl
  | scanReturn l => simp only [State.enabled, State.scanMustReturn, Bool.and_eq_true, beq_iff_eq] at h; exact running h.1.1 rfl
  | scanClaim l =>
    simp only [State.enabled, State.scanMayClaim, Bool.and_eq_true, beq_iff_eq] at h; exact running h.1.1.1.1.1 rfl
  | grant l => simp only [State.enabled, Bool.and_eq_true, beq_iff_eq] at h; exact running h.1 rfl
  | notice l =>
    simp only [State.enabled, State.noticeMayStart, Bool.and_eq_true, beq_iff_eq] at h; exact running h.1.1.1.1 rfl

theorem State.nextAct_of_not_working {s : State} (h : s.working = false) : s.nextAct = none := by
  cases hn : s.nextAct with
  | none => rfl
  | some p => simp [State.enabled_working (State.nextAct_enabled (free := p.2) hn)] at h

/-- In OFF, LOADING and FAULTED the units do nothing. -/
theorem State.react_of_not_working {s : State} (h : s.working = false) : s.react = s :=
  State.react_of_none (State.nextAct_of_not_working h)

theorem State.OffFrom.not_working {u t : State} (h : u.OffFrom t) : t.working = false := by
  unfold State.working
  cases he : u.enable with
  | false => simp [(h.stays he).1]
  | true =>
    cases hb : bootAddrOk u.bootAddr with
    | true => simp [(h.loads he hb).1]
    | false => simp [(h.badBoot he hb).1]

/-- What the units make of a state is the state kept, or a part in DISABLING that has reached OFF. -/
theorem State.unitsLeave_react (u : State) : u.UnitsLeave u.react := by
  refine State.react_induction (P := u.UnitsLeave) (fun t a ha h => ?_) (fun t n h => ?_) (.inl (.refl u))
  · rcases h with h | ⟨-, h⟩
    · by_cases e : a = .reachOff
      · subst e
        refine .inr ⟨?_, .of_kept h (.endDisable t)⟩
        simp only [State.enabled, Bool.and_eq_true, beq_iff_eq] at ha
        rw [← h.device, ha.1]
      · exact .inl (h.trans (.perform ha e))
    · exact absurd (State.enabled_working ha) (by simp [h.not_working])
  · rcases h with h | ⟨hd, h⟩
    · exact .inl (h.trans (.ofChoices t n))
    · exact .inr ⟨hd, { h with }⟩

theorem AfterUnits.react (u : State) : AfterUnits u u.react := ⟨rfl, u.unitsLeave_react⟩

/-- Settles O2, act by act: each enabled act leaves the rest as it is or is the arrival in OFF, after which none is enabled. -/
theorem unitsOwnActsKeepTheRest : Obligations.UnitsOwnActsKeepTheRest :=
  ⟨AfterUnits.react, fun _ => State.react_of_not_working⟩

end Sys2Proof.Machine

/-! # The ledger of reservations is not kept by every step (R114, R138, R140)

The laws of `State.LedgerOk` do not tie a delivery's decided status to its buffer address. A delivery whose record is being written, and
whose buffer address has not been read, meets them; the end of its pool entry read with an address above 2^56 − 1 then requests the write a
second time. -/

namespace Sys2Proof.Machine

/-- A delivery with a status and without a buffer address. -/
def decidedDelivery : Delivery := ⟨0, 5, 0, 0, [], none, some .ok, none⟩

/-- C1 with the write of a delivery of line 0 requested and its place reserved. -/
def requestedRing : CRing := { newCRing 0 3 1 0 false with reserved := 1, waiting := [.scanner 0] }

/-- A part in DISABLING whose line 0 holds that delivery, with the end of its pool entry read at the front of the queue. -/
def decidedUnread : State := { State.reset with
  device := .disabling
  crings := vput State.reset.crings 1 (some requestedRing)
  lines := vput State.reset.lines 0 { Line.reset .mark with scanner := ⟨.delivering, some 1, none, some decidedDelivery, false⟩ }
  pending := [.poolEntryRead 0 (.ok (List.replicate 8 0xFF))] }

set_option maxRecDepth 4096 in
theorem decidedUnread_laws : decidedUnread.LinesOk ∧ decidedUnread.AttemptsOk ∧ decidedUnread.ScannersOk := by
  unfold State.LinesOk State.AttemptsOk State.ScannersOk Line.Ok Scanner.Ok
  decide

theorem decidedUnread_inFlightOk : decidedUnread.InFlightOk := by
  unfold State.InFlightOk
  decide

theorem decidedUnread_capacityOk : decidedUnread.CapacityOk := by
  refine fun _ => ⟨by decide, fun r c hc => ?_⟩
  obtain ⟨rfl, rfl⟩ : c = requestedRing ∧ r = 1 := by
    revert r c
    decide
  refine ⟨by decide, by decide, by decide, fun w hw => ?_⟩
  obtain rfl : w = .scanner 0 := by simpa [CRing.writers, requestedRing, newCRing] using hw
  exact ⟨rfl, rfl, decidedDelivery, rfl, rfl⟩

/-- The state meets every law of the ledger. -/
theorem decidedUnread_ledgerOk : decidedUnread.LedgerOk :=
  ⟨decidedUnread_laws.1, decidedUnread_laws.2.1, decidedUnread_laws.2.2, fun h => absurd h (by decide),
    decidedUnread_inFlightOk, decidedUnread_capacityOk⟩

/-- What the step leads to: one writer stands twice in C1. -/
def requestedTwice : State := (({ decidedUnread with pending := [] } : State).poolReadEnds 0 (.ok (List.replicate 8 0xFF))).react

theorem step_decidedUnread : step decidedUnread = .next requestedTwice := rfl

set_option maxRecDepth 8192 in
theorem requestedTwice_writers :
    requestedTwice.device = .disabling ∧ (requestedTwice.cring 1).map CRing.writers = some [.scanner 0, .scanner 0] := by
  decide

/-- Refutes O60: a delivery's status does not keep its pool entry read from deciding it again, and its writer then stands twice. -/
theorem not_stepKeepsTheReservationLedger : ¬ Obligations.StepKeepsTheReservationLedger := by
  intro h
  obtain ⟨-, -, -, -, -, hcap⟩ := h _ _ decidedUnread_ledgerOk step_decidedUnread
  obtain ⟨hdevice, hwriters⟩ := requestedTwice_writers
  obtain ⟨c, hc, hw⟩ := Option.map_eq_some_iff.mp hwriters
  have hnodup := ((hcap (by simp [State.working, hdevice])).2 1 c hc).2.2.1
  simp [hw] at hnodup

end Sys2Proof.Machine

/-! # What the station table, the slots and the Scanners take from an event

`State.TableWork s t`: `t` is `s` with stations, slots, counters, notice queues and write requests moved on, every exchange, every Scanner
and every register as it was. `State.SideWork s t`: with that the Scanners and their reservations may have moved on, and a pool entry may
have been taken. Each operation of chapters 2, 3 and 6 is one of these, and so is a row of them. -/

namespace Sys2Proof.Machine

/-! ## The relations -/

/-- A slot moved on: the record it holds, its ring and its age stay, and it does not become ACTIVE. -/
structure Slot.Moved (x y : Slot) : Prop where
  record : y.record = x.record
  ring : y.ring = x.ring
  age : y.age = x.age
  fenceHeld : y.fenceHeld = x.fenceHeld
  active : y.state = .active → x.state = .active

/-- The slots of a line moved on, none taken and none freed. -/
structure Line.SlotsMoved (x y : Line) : Prop where
  free : ∀ i, x.slot i = none → y.slot i = none
  used : ∀ i, ∀ a ∈ x.slot i, ∃ b ∈ y.slot i, a.Moved b

/-- A line whose slots, completion writer, counters and notice queue alone have moved on. -/
structure Line.TableWork (x y : Line) : Prop where
  rest : y = { x with slots := y.slots, txnWriter := y.txnWriter, counters := y.counters, noticeQueue := y.noticeQueue }
  slots : x.SlotsMoved y

/-- A line whose Scanner may have moved on as well. -/
structure Line.SideWork (x y : Line) : Prop where
  rest : y = { x with
    slots := y.slots, txnWriter := y.txnWriter, counters := y.counters, noticeQueue := y.noticeQueue, scanner := y.scanner }
  slots : x.SlotsMoved y

/-- A completion ring whose reservations and requests alone have moved on. -/
def CRing.Moved (c d : CRing) : Prop := d = { c with reserved := d.reserved, waiting := d.waiting }

/-- No completion ring comes or goes, and of each the reservations and requests alone have moved on. -/
structure State.CRingsMoved (s t : State) : Prop where
  absent : ∀ r, s.cring r = none → t.cring r = none
  present : ∀ r, ∀ c ∈ s.cring r, ∃ d ∈ t.cring r, c.Moved d

/-- No station entry comes into use, and each in use has the key it had. -/
def State.KeysKept (s t : State) : Prop := ∀ e, ∀ y ∈ t.station e, ∃ x ∈ s.station e, y.line = x.line ∧ y.addr = x.addr

/-- The pool's head may have moved on within the ring. -/
def PoolMoved (p q : Option Pool) : Prop :=
  q = p ∨ ∃ x ∈ p, ∃ y ∈ q, y = { x with head := y.head } ∧ y.head < ringSize x.sizeCode

structure State.TableWork (s t : State) : Prop where
  same : t = { s with lines := t.lines, stations := t.stations, crings := t.crings }
  lines : ∀ l, (s.line l).TableWork (t.line l)
  keys : s.KeysKept t
  queues : s.QueuesOk → t.QueuesOk
  crings : s.CRingsMoved t

structure State.SideWork (s t : State) : Prop where
  same : t = { s with lines := t.lines, stations := t.stations, crings := t.crings, pool := t.pool }
  lines : ∀ l, (s.line l).SideWork (t.line l)
  keys : s.KeysKept t
  queues : s.QueuesOk → t.QueuesOk
  crings : s.CRingsMoved t
  pool : PoolMoved s.pool t.pool

/-! ## They hold of no change and of one change after another -/

theorem Slot.Moved.refl (x : Slot) : x.Moved x := ⟨rfl, rfl, rfl, rfl, id⟩

theorem Slot.Moved.trans {x y z : Slot} (h : x.Moved y) (k : y.Moved z) : x.Moved z :=
  ⟨k.record.trans h.record, k.ring.trans h.ring, k.age.trans h.age, k.fenceHeld.trans h.fenceHeld, h.active ∘ k.active⟩

theorem Line.SlotsMoved.refl (x : Line) : x.SlotsMoved x := ⟨fun _ h => h, fun _ a h => ⟨a, h, .refl a⟩⟩

theorem Line.SlotsMoved.trans {x y z : Line} (h : x.SlotsMoved y) (k : y.SlotsMoved z) : x.SlotsMoved z where
  free i hi := k.free i (h.free i hi)
  used i a ha := by
    obtain ⟨b, hb, hab⟩ := h.used i a ha
    obtain ⟨c, hc, hbc⟩ := k.used i b hb
    exact ⟨c, hc, hab.trans hbc⟩

/-- Read backwards: a slot in use has moved on from one in use. -/
theorem Line.SlotsMoved.back {x y : Line} (h : x.SlotsMoved y) (i : SlotId) : ∀ b ∈ y.slot i, ∃ a ∈ x.slot i, a.Moved b := by
  intro b hb
  cases ha : x.slot i with
  | none => rw [h.free i ha] at hb; cases hb
  | some a =>
    obtain ⟨c, hc, hac⟩ := h.used i a ha
    obtain rfl : c = b := Option.mem_unique hc hb
    exact ⟨a, rfl, hac⟩

theorem Line.TableWork.refl (x : Line) : x.TableWork x := ⟨rfl, .refl x⟩

theorem Line.TableWork.trans {x y z : Line} (h : x.TableWork y) (k : y.TableWork z) : x.TableWork z :=
  ⟨by rw [k.rest, h.rest], h.slots.trans k.slots⟩

theorem Line.SideWork.refl (x : Line) : x.SideWork x := ⟨rfl, .refl x⟩

theorem Line.SideWork.trans {x y z : Line} (h : x.SideWork y) (k : y.SideWork z) : x.SideWork z :=
  ⟨by rw [k.rest, h.rest], h.slots.trans k.slots⟩

theorem Line.TableWork.side {x y : Line} (h : x.TableWork y) : x.SideWork y := ⟨by rw [h.rest], h.slots⟩

theorem State.CRingsMoved.refl (s : State) : s.CRingsMoved s := ⟨fun _ h => h, fun _ c h => ⟨c, h, rfl⟩⟩

theorem State.CRingsMoved.of_eq {s t : State} (h : t.crings = s.crings) : s.CRingsMoved t := by
  have : ∀ r, t.cring r = s.cring r := fun r => by simp [State.cring, h]
  exact ⟨fun r hr => (this r).trans hr, fun r c hc => ⟨c, (this r).trans hc, rfl⟩⟩

theorem State.CRingsMoved.trans {s t u : State} (h : s.CRingsMoved t) (k : t.CRingsMoved u) : s.CRingsMoved u where
  absent r hr := k.absent r (h.absent r hr)
  present r c hc := by
    obtain ⟨d, hd, hcd⟩ := h.present r c hc
    obtain ⟨e, he, hde⟩ := k.present r d hd
    refine ⟨e, he, ?_⟩
    rw [CRing.Moved] at *
    rw [hde, hcd]

theorem State.KeysKept.refl (s : State) : s.KeysKept s := fun _ y hy => ⟨y, hy, rfl, rfl⟩

theorem State.KeysKept.trans {s t u : State} (h : s.KeysKept t) (k : t.KeysKept u) : s.KeysKept u := by
  intro e z hz
  obtain ⟨y, hy, h1, h2⟩ := k e z hz
  obtain ⟨x, hx, h3, h4⟩ := h e y hy
  exact ⟨x, hx, h1.trans h3, h2.trans h4⟩

theorem State.KeysKept.keysOk {s t : State} (h : s.KeysKept t) (k : s.KeysOk) : t.KeysOk := by
  refine ⟨fun e y hy => ?_, fun e f y hy z hz hl ha => ?_⟩
  · obtain ⟨x, hx, -, ha⟩ := h e y hy
    rw [ha]
    exact k.1 e x hx
  · obtain ⟨x, hx, h1, h2⟩ := h e y hy
    obtain ⟨w, hw, h3, h4⟩ := h f z hz
    exact k.2 e f x hx w hw (by rw [← h1, hl, h3]) (by rw [← h2, ha, h4])

theorem PoolMoved.trans {p q r : Option Pool} (h : PoolMoved p q) (k : PoolMoved q r) : PoolMoved p r := by
  rcases h with rfl | ⟨x, hx, y, hy, e, hlt⟩
  · exact k
  · rcases k with rfl | ⟨y', hy', z, hz, e', hlt'⟩
    · exact .inr ⟨x, hx, y, hy, e, hlt⟩
    · obtain rfl : y = y' := Option.mem_unique hy hy'
      refine .inr ⟨x, hx, z, hz, ?_, ?_⟩
      · rw [e', e]
      · rw [e] at hlt'; exact hlt'

theorem State.TableWork.refl (s : State) : s.TableWork s := ⟨rfl, fun _ => .refl _, .refl s, id, .refl s⟩

theorem State.TableWork.trans {s t u : State} (h : s.TableWork t) (k : t.TableWork u) : s.TableWork u :=
  ⟨by rw [k.same, h.same], fun l => (h.lines l).trans (k.lines l), h.keys.trans k.keys, k.queues ∘ h.queues, h.crings.trans k.crings⟩

theorem State.SideWork.refl (s : State) : s.SideWork s := ⟨rfl, fun _ => .refl _, .refl s, id, .refl s, .inl rfl⟩

theorem State.SideWork.trans {s t u : State} (h : s.SideWork t) (k : t.SideWork u) : s.SideWork u :=
  ⟨by rw [k.same, h.same], fun l => (h.lines l).trans (k.lines l), h.keys.trans k.keys, k.queues ∘ h.queues, h.crings.trans k.crings,
    h.pool.trans k.pool⟩

theorem State.TableWork.side {s t : State} (h : s.TableWork t) : s.SideWork t :=
  ⟨by rw [h.same], fun l => (h.lines l).side, h.keys, h.queues, h.crings, .inl (by rw [h.same])⟩

/-! ## Notice queues (R31, R32, R34) -/

/-- What the law of the notice queues reads of a state. -/
theorem State.QueuesOk.congr {s t : State} (hl : ∀ l, (t.line l).noticeQueue = (s.line l).noticeQueue)
    (he : ∀ e, (t.station e).map (fun x => (x.line, x.noticePending)) = (s.station e).map fun x => (x.line, x.noticePending))
    (h : s.QueuesOk) : t.QueuesOk := by
  intro l
  rw [hl l]
  refine ⟨(h l).1, fun e => ((h l).2 e).trans ?_⟩
  have := he e
  cases hs : s.station e <;> cases ht : t.station e <;> simp_all

theorem queueAppend_nodup {q : List EntryId} (h : q.Nodup) (e : EntryId) : (queueAppend q e).Nodup := by
  unfold queueAppend
  split
  · exact h
  · next he => exact List.nodup_append.mpr ⟨h, List.nodup_singleton e, by simp_all; grind⟩

theorem mem_queueAppend {q : List EntryId} {e f : EntryId} : f ∈ queueAppend q e ↔ f ∈ q ∨ f = e := by
  unfold queueAppend
  split
  · next he =>
    have : e ∈ q := by simpa using he
    grind
  · simp

theorem State.QueuesOk.changeState {s : State} (h : s.QueuesOk) (e : EntryId) (st : StationState) : (s.changeState e st).QueuesOk := by
  unfold State.changeState
  split
  · exact h
  · next x hx =>
    intro l
    have hstation : ∀ f, (∃ y ∈ ((s.setStation e (some { x with
          state := st, noticePending := true, changes := satSucc 255 x.changes })).modLine x.line
          fun ln => { ln with noticeQueue := queueAppend ln.noticeQueue e }).station f, y.line = l ∧ y.noticePending = true)
        ↔ (f = e ∧ x.line = l) ∨ (f ≠ e ∧ f ∈ (s.line l).noticeQueue) := by
      intro f
      rw [(h l).2 f, State.modLine_station_frame]
      by_cases hf : f = e
      · subst hf; simp
      · simp [hf]
    have hxe : e ∈ (s.line l).noticeQueue → x.line = l := fun he => by
      obtain ⟨y, hy, hl, -⟩ := ((h l).2 e).mp he
      obtain rfl : x = y := by simpa [hx] using hy
      exact hl
    simp only [hstation]
    by_cases hl : l = x.line
    · subst hl
      simp only [State.line_modLine_same, State.setStation_line_frame]
      exact ⟨queueAppend_nodup (h _).1 e, fun f => by rw [mem_queueAppend]; grind⟩
    · rw [State.line_modLine_ne _ _ hl, State.setStation_line_frame]
      exact ⟨(h l).1, fun f => by grind⟩

theorem State.QueuesOk.freeEntry {s : State} (h : s.QueuesOk) (e : EntryId) : (s.freeEntry e).QueuesOk := by
  unfold State.freeEntry
  split
  · exact h
  · next x hx =>
    intro l
    have hstation : ∀ f, (∃ y ∈ ((s.setStation e none).modLine x.line
          fun ln => { ln with noticeQueue := ln.noticeQueue.filter (· ≠ e) }).station f, y.line = l ∧ y.noticePending = true)
        ↔ f ≠ e ∧ f ∈ (s.line l).noticeQueue := by
      intro f
      rw [(h l).2 f, State.modLine_station_frame]
      by_cases hf : f = e
      · subst hf; simp
      · simp [hf]
    have hxe : e ∈ (s.line l).noticeQueue → x.line = l := fun he => by
      obtain ⟨y, hy, hl, -⟩ := ((h l).2 e).mp he
      obtain rfl : x = y := by simpa [hx] using hy
      exact hl
    simp only [hstation]
    by_cases hl : l = x.line
    · subst hl
      simp only [State.line_modLine_same, State.setStation_line_frame]
      exact ⟨(h _).1.filter _, fun f => by simp [List.mem_filter, and_comm]⟩
    · rw [State.line_modLine_ne _ _ hl, State.setStation_line_frame]
      exact ⟨(h l).1, fun f => by grind⟩

/-! ## One part moved on -/

theorem Line.SlotsMoved.modSlot {x : Line} {i : SlotId} {f : Slot → Slot} (h : ∀ a ∈ x.slot i, a.Moved (f a)) :
    x.SlotsMoved (x.modSlot i f) where
  free j hj := by
    by_cases e : j = i
    · subst e; simp [hj]
    · rwa [Line.slot_modSlot_ne _ f e]
  used j a ha := by
    by_cases e : j = i
    · subst e; exact ⟨f a, by simp [Option.mem_def.mp ha], h a ha⟩
    · exact ⟨a, by rwa [Line.slot_modSlot_ne _ f e], .refl a⟩

theorem Line.SlotsMoved.mapSlots {x : Line} {f : Slot → Slot} (h : ∀ i, ∀ a ∈ x.slot i, a.Moved (f a)) :
    x.SlotsMoved (x.mapSlots f) where
  free j hj := by simp [hj]
  used j a ha := ⟨f a, by simp [Option.mem_def.mp ha], h j a ha⟩

/-- Two lines with the same slots. -/
theorem Line.SlotsMoved.of_eq {x y : Line} (h : y.slots = x.slots) : x.SlotsMoved y := by
  have : ∀ i, y.slot i = x.slot i := fun i => by simp [Line.slot, h]
  exact ⟨fun i hi => (this i).trans hi, fun i a ha => ⟨a, by rwa [this i], .refl a⟩⟩

/-- What happens to line `l` alone, as a property of every line. -/
theorem State.modLine_lines {s : State} {R : Line → Line → Prop} (hr : ∀ x, R x x) {l : LineId} {f : Line → Line}
    (h : R (s.line l) (f (s.line l))) (k : LineId) : R (s.line k) ((s.modLine l f).line k) := by
  by_cases e : k = l
  · subst e; simpa using h
  · rw [State.line_modLine_ne _ _ e]; exact hr _

theorem State.TableWork.modLine {s : State} {l : LineId} {f : Line → Line} (h : (s.line l).TableWork (f (s.line l)))
    (hq : (f (s.line l)).noticeQueue = (s.line l).noticeQueue) : s.TableWork (s.modLine l f) where
  same := rfl
  lines := State.modLine_lines .refl h
  keys := .refl s
  queues := .congr (State.modLine_lines (R := fun x y => y.noticeQueue = x.noticeQueue) (fun _ => rfl) hq) fun _ => rfl
  crings := .of_eq rfl

theorem State.SideWork.modLine {s : State} {l : LineId} {f : Line → Line} (h : (s.line l).SideWork (f (s.line l)))
    (hq : (f (s.line l)).noticeQueue = (s.line l).noticeQueue) : s.SideWork (s.modLine l f) where
  same := rfl
  lines := State.modLine_lines .refl h
  keys := .refl s
  queues := .congr (State.modLine_lines (R := fun x y => y.noticeQueue = x.noticeQueue) (fun _ => rfl) hq) fun _ => rfl
  crings := .of_eq rfl
  pool := .inl rfl

theorem State.TableWork.modSlot {s : State} {l : LineId} {i : SlotId} {f : Slot → Slot} (h : ∀ a ∈ s.slot l i, a.Moved (f a)) :
    s.TableWork (s.modSlot l i f) :=
  .modLine ⟨rfl, .modSlot h⟩ rfl

theorem State.TableWork.mapSlots {s : State} {l : LineId} {f : Line → Slot → Slot}
    (h : ∀ i, ∀ a ∈ s.slot l i, a.Moved (f (s.line l) a)) : s.TableWork (s.modLine l fun x => x.mapSlots (f x)) :=
  .modLine ⟨rfl, .mapSlots h⟩ rfl

/-- The fields of an entry other than its key and its notice have moved on. -/
theorem State.TableWork.setStation {s : State} {e : EntryId} {x y : Station} (hx : s.station e = some x) (hl : y.line = x.line)
    (ha : y.addr = x.addr) (hn : y.noticePending = x.noticePending) : s.TableWork (s.setStation e (some y)) where
  same := rfl
  lines _ := .refl _
  keys f z hz := by
    by_cases k : f = e
    · subst k
      obtain rfl : y = z := by simpa using hz
      exact ⟨x, hx, hl, ha⟩
    · rw [State.station_setStation_ne _ _ k] at hz
      exact ⟨z, hz, rfl, rfl⟩
  queues := .congr (fun _ => rfl) fun f => by
    by_cases k : f = e
    · subst k; simp [hx, hl, hn]
    · rw [State.station_setStation_ne _ _ k]
  crings := .of_eq rfl

theorem State.TableWork.modStation {s : State} {e : EntryId} {f : Station → Station}
    (h : ∀ x, (f x).line = x.line ∧ (f x).addr = x.addr ∧ (f x).noticePending = x.noticePending) :
    s.TableWork (s.modStation e f) := by
  cases hx : s.station e with
  | some x =>
    rw [State.modStation, hx]
    exact .setStation hx (h x).1 (h x).2.1 (h x).2.2
  | none =>
    have : s.modStation e f = s := by
      have : vput s.stations e none = s.stations := vget_ext fun q => by
        rw [vget_vput]
        split
        · next k => subst k; exact hx.symm
        · rfl
      simp only [State.modStation, hx, Option.map_none, State.setStation, this]
    rw [this]
    exact .refl s

theorem State.TableWork.changeState (s : State) (e : EntryId) (st : StationState) : s.TableWork (s.changeState e st) := by
  have hq : s.QueuesOk → (s.changeState e st).QueuesOk := fun h => h.changeState e st
  unfold State.changeState at hq ⊢
  split
  · exact .refl s
  · next x hx =>
    rw [hx] at hq
    exact
      { same := rfl
        lines := State.modLine_lines (s := s.setStation e _) .refl ⟨rfl, .of_eq rfl⟩
        keys := fun f z hz => by
          rw [State.modLine_station_frame] at hz
          by_cases k : f = e
          · subst k
            obtain rfl : _ = z := by simpa using hz
            exact ⟨x, hx, rfl, rfl⟩
          · rw [State.station_setStation_ne _ _ k] at hz
            exact ⟨z, hz, rfl, rfl⟩
        queues := hq
        crings := .of_eq rfl }

theorem State.TableWork.freeEntry (s : State) (e : EntryId) : s.TableWork (s.freeEntry e) := by
  have hq : s.QueuesOk → (s.freeEntry e).QueuesOk := fun h => h.freeEntry e
  unfold State.freeEntry at hq ⊢
  split
  · exact .refl s
  · next x hx =>
    rw [hx] at hq
    exact
      { same := rfl
        lines := State.modLine_lines (s := s.setStation e _) .refl ⟨rfl, .of_eq rfl⟩
        keys := fun f z hz => by
          rw [State.modLine_station_frame] at hz
          by_cases k : f = e
          · subst k; simp at hz
          · rw [State.station_setStation_ne _ _ k] at hz
            exact ⟨z, hz, rfl, rfl⟩
        queues := hq
        crings := .of_eq rfl }

theorem State.CRingsMoved.modCRing (s : State) (r : CRingId) {f : CRing → CRing} (h : ∀ c : CRing, c.Moved (f c)) :
    s.CRingsMoved (s.modCRing r f) where
  absent q hq := by
    by_cases e : q = r
    · subst e; simp [hq]
    · rwa [State.cring_modCRing_ne _ _ e]
  present q c hc := by
    by_cases e : q = r
    · subst e; exact ⟨f c, by simp [Option.mem_def.mp hc], h c⟩
    · exact ⟨c, by rwa [State.cring_modCRing_ne _ _ e], rfl⟩

theorem State.TableWork.requestWrite (s : State) (r : CRingId) (w : Writer) : s.TableWork (s.requestWrite r w) :=
  ⟨rfl, fun _ => .refl _, .refl s, .congr (fun _ => rfl) fun _ => rfl, .modCRing s r fun _ => rfl⟩

theorem State.SideWork.reserve (s : State) (r : CRingId) : s.SideWork (s.reserve r) :=
  ⟨rfl, fun _ => .refl _, .refl s, .congr (fun _ => rfl) fun _ => rfl, .modCRing s r fun _ => rfl, .inl rfl⟩

theorem Line.SideWork.placeGained (r : CRingId) (x : Line) : x.SideWork (x.placeGained r) := by
  rw [Line.placeGained_eq]
  exact ⟨rfl, .of_eq rfl⟩

theorem Line.placeGained_noticeQueue (r : CRingId) (x : Line) : (x.placeGained r).noticeQueue = x.noticeQueue := by
  rw [Line.placeGained_eq]

theorem State.SideWork.gainPlace (s : State) (r : CRingId) : s.SideWork (s.gainPlace r) where
  same := rfl
  lines l := by rw [State.line_gainPlace]; exact .placeGained r _
  keys := .refl s
  queues := .congr (fun l => by rw [State.line_gainPlace, Line.placeGained_noticeQueue]) fun _ => rfl
  crings := .of_eq rfl
  pool := .inl rfl

theorem State.SideWork.returnReservation (s : State) (r : CRingId) : s.SideWork (s.returnReservation r) :=
  .trans (t := s.modCRing r fun c => { c with reserved := c.reserved - 1 })
    ⟨rfl, fun _ => .refl _, .refl s, .congr (fun _ => rfl) fun _ => rfl, .modCRing s r fun _ => rfl, .inl rfl⟩ (.gainPlace _ r)

/-! ## Slots (chapters 3 and 5) -/

theorem Slot.Moved.finish (x : Slot) (status : Status) (detail : Detail) (n v : Nat) : x.Moved (x.finish status detail n v) :=
  ⟨rfl, rfl, rfl, rfl, fun h => by simp [Slot.finish] at h⟩

theorem Slot.Moved.finishPlain (x : Slot) (status : Status) : x.Moved (x.finishPlain status) := .finish x status _ _ _

theorem Slot.Moved.ready (x : Slot) : x.Moved { x with state := .ready } := ⟨rfl, rfl, rfl, rfl, nofun⟩

theorem Slot.Moved.cutOff (x : Slot) (status : Status) : x.Moved (x.cutOff status) := by
  unfold Slot.cutOff
  split
  · exact ⟨rfl, rfl, rfl, rfl, id⟩
  · exact .finishPlain x status
  · exact .finishPlain x status
  · exact .finishPlain x status
  · exact .refl x
  · exact .refl x
  · exact .refl x

theorem Slot.Moved.enterReady (x : Slot) (graceful : Bool) (st : Option Station) : x.Moved (x.enterReady graceful st) := by
  unfold Slot.enterReady
  split
  · exact .ready x
  · split
    · exact .finishPlain x _
    · split
      · exact ⟨rfl, rfl, rfl, rfl, nofun⟩
      · exact .ready x

theorem Slot.Moved.stationOffline (x : Slot) (heldOff : Bool) : x.Moved (x.stationOffline heldOff) := by
  unfold Slot.stationOffline
  split
  · split
    · exact .ready x
    · exact .refl x
  · exact .cutOff x _

/-- A slot is moved on by a case distinction whose other branch leaves it. -/
theorem Slot.Moved.ite {x y : Slot} {p : Prop} [Decidable p] (h : x.Moved y) : x.Moved (if p then y else x) := by
  split
  · exact h
  · exact .refl x

theorem State.TableWork.enterReady (s : State) (l : LineId) (i : SlotId) : s.TableWork (s.enterReady l i) := by
  unfold State.enterReady
  split
  · exact .refl s
  · exact .modSlot fun a _ => .enterReady a _ _

theorem State.TableWork.deferReady (s : State) (l : LineId) (a : Nat) : s.TableWork (s.deferReady l a) :=
  .mapSlots (f := fun x y => if y.state = .ready ∧ y.addr = a then y.enterReady x.gracefulStop (s.keyed l a) else y)
    fun _ y _ => .ite (.enterReady y _ _)

theorem State.TableWork.releaseDeferred (s : State) (l : LineId) (a : Nat) : s.TableWork (s.releaseDeferred l a) := by
  unfold State.releaseDeferred
  split
  · exact .refl s
  · exact .mapSlots (f := fun _ y => if y.state = .deferred ∧ y.addr = a then { y with state := .ready } else y)
      fun _ y _ => .ite (.ready y)

theorem State.TableWork.abortRedeliveryDeferred (s : State) (l : LineId) : s.TableWork (s.abortRedeliveryDeferred l) := by
  refine .modLine ⟨rfl, .mapSlots fun i y _ => ?_⟩ rfl
  split
  · exact .ite (.finishPlain y _)
  · exact .refl y

theorem State.TableWork.requestTxn (s : State) (l : LineId) : s.TableWork (s.requestTxn l) := by
  unfold State.requestTxn
  split
  · exact .refl s
  · split
    · exact .refl s
    · next r _ =>
      exact .trans (t := s.modLine l fun x => { x with txnWriter := some _ }) (.modLine ⟨rfl, .of_eq rfl⟩ rfl)
        (.requestWrite _ r _)

/-! ## Stations (chapter 2) -/

theorem State.TableWork.moveOffline (s : State) (e : EntryId) : s.TableWork (s.moveOffline e) := by
  unfold State.moveOffline
  split
  · exact .refl s
  · next x hx =>
    dsimp only
    refine .trans (.trans ?_ (.changeState _ e .offline))
      (.mapSlots (f := fun _ y => if y.addr = x.addr then y.stationOffline x.holdUntil.isSome else y)
        fun _ y _ => .ite (.stationOffline y _))
    exact .setStation hx rfl rfl rfl

theorem State.TableWork.clearRedelivery (s : State) (e : EntryId) (sync : Bool) : s.TableWork (s.clearRedelivery e sync) := by
  unfold State.clearRedelivery
  split
  · exact .refl s
  · next x hx =>
    split
    · refine .trans ?_ (.releaseDeferred _ _ _)
      exact .setStation hx rfl rfl rfl
    · exact .refl s

theorem State.TableWork.stationDelivered (s : State) (e : EntryId) (toggle sync : Bool) :
    s.TableWork (s.stationDelivered e toggle sync) := by
  unfold State.stationDelivered
  split
  · exact .refl s
  · next x hx =>
    dsimp only
    refine .trans ?_ (.clearRedelivery _ e sync)
    split
    · exact .setStation hx rfl rfl rfl
    · refine .trans ?_ (.changeState _ e .online)
      exact .setStation hx rfl rfl rfl

theorem State.TableWork.failureAccounting (s : State) (e : EntryId) (cause : Cause) : s.TableWork (s.failureAccounting e cause) := by
  unfold State.failureAccounting
  split
  · exact .refl s
  · next x hx =>
    dsimp only
    split
    · exact .setStation hx rfl rfl rfl
    · refine .trans ?_ (.moveOffline _ e)
      exact .setStation hx rfl rfl rfl
    · refine .trans ?_ (.changeState _ e _)
      exact .setStation hx rfl rfl rfl

theorem State.TableWork.stationBusy (s : State) (e : EntryId) : s.TableWork (s.stationBusy e) := by
  unfold State.stationBusy
  split
  · exact .refl s
  · next x hx =>
    refine .trans ?_ (.deferReady _ _ _)
    exact .setStation hx rfl rfl rfl

theorem State.TableWork.stationRedelivery (s : State) (e : EntryId) : s.TableWork (s.stationRedelivery e) := by
  unfold State.stationRedelivery
  split
  · exact .refl s
  · next x hx =>
    refine .trans ?_ (.deferReady _ _ _)
    exact .setStation hx rfl rfl rfl

theorem State.TableWork.endHoldOff (s : State) (e : EntryId) : s.TableWork (s.endHoldOff e) := by
  unfold State.endHoldOff
  split
  · exact .refl s
  · next x hx =>
    refine .trans ?_ (.releaseDeferred _ _ _)
    exact .setStation hx rfl rfl rfl

theorem State.TableWork.scheduleNext (s : State) (e : EntryId) : s.TableWork (s.scheduleNext e) := by
  unfold State.scheduleNext
  split
  · exact .refl s
  · next x hx => exact .setStation hx rfl rfl rfl

theorem State.TableWork.countExchange (s : State) (l : LineId) (a : Nat) (kind : Option RespKind) :
    s.TableWork (s.countExchange l a kind) := by
  unfold State.countExchange
  split
  · exact .modStation fun _ => ⟨rfl, rfl, rfl⟩
  · exact .refl s

theorem State.TableWork.abandonStation (s : State) (l : LineId) (a : Nat) (free : Bool) :
    s.TableWork (s.abandonStation l a free) := by
  unfold State.abandonStation
  split
  · exact .refl s
  · next e _ =>
    have hmod : s.TableWork (s.modStation e Station.abandoned) := .modStation fun _ => ⟨rfl, rfl, rfl⟩
    dsimp only
    split
    · exact hmod.trans (.freeEntry _ e)
    · exact hmod

/-! ## The outcome of an attempt (R53 to R58) -/

theorem State.TableWork.entryOutcome (s : State) (e : EntryId) (detaching : Bool) (a : Attempt) (o : AttemptOutcome) :
    s.TableWork (s.entryOutcome e detaching a o) := by
  unfold State.entryOutcome
  split
  · exact .freeEntry s e
  · split
    · exact .stationBusy s e
    · exact .stationDelivered s e _ _
    · exact .refl s
    · exact .failureAccounting s e _
    · exact .refl s

theorem Slot.Moved.countAttempt (x : Slot) (o : AttemptOutcome) : x.Moved (x.countAttempt o) := by
  unfold Slot.countAttempt
  split <;> exact ⟨rfl, rfl, rfl, rfl, id⟩

theorem Slot.Moved.beginStoring (x : Slot) (payload : List Byte) : x.Moved (x.beginStoring payload) := by
  unfold Slot.beginStoring
  dsimp only
  split
  · exact ⟨rfl, rfl, rfl, rfl, nofun⟩
  · exact ⟨rfl, rfl, rfl, rfl, nofun⟩

/-- Deciding the outcome leaves no slot ACTIVE (R54 to R58). -/
theorem Slot.decideOutcome_moved (x : Slot) (v : SlotView) (o : AttemptOutcome) :
    x.Moved (x.decideOutcome v o) ∧ (x.decideOutcome v o).state ≠ .active := by
  have hstore : ∀ p, (x.beginStoring p).state ≠ .active := by
    intro p
    unfold Slot.beginStoring
    dsimp only
    split <;> simp [Slot.storeFailed, Slot.finish]
  have hready : (x.enterReady v.graceful v.station).state ≠ .active := by
    unfold Slot.enterReady
    split
    · simp
    · split
      · simp [Slot.finishPlain, Slot.finish]
      · split <;> simp
  have hfinish : ∀ st d n r, x.Moved (x.finish st d n r) ∧ (x.finish st d n r).state ≠ .active := fun st d n r =>
    ⟨.finish x st d n r, by simp [Slot.finish]⟩
  unfold Slot.decideOutcome
  split
  · exact ⟨.beginStoring x _, hstore _⟩
  · exact hfinish _ _ _ _
  · exact hfinish _ _ _ _
  · exact hfinish _ _ _ _
  · split
    · exact hfinish _ _ _ _
    · exact ⟨.enterReady x _ _, hready⟩
  · split
    · exact hfinish _ _ _ _
    · split
      · exact hfinish _ _ _ _
      · split
        · exact ⟨.enterReady x _ _, hready⟩
        · exact hfinish _ _ _ _
  · exact hfinish _ _ _ _

theorem Line.TableWork.counters (x : Line) (n : Counters) : x.TableWork { x with counters := n } := ⟨rfl, .of_eq rfl⟩

theorem Line.TableWork.countHostResponse (x : Line) (o : AttemptOutcome) :
    x.TableWork (x.countHostResponse o) ∧ (x.countHostResponse o).noticeQueue = x.noticeQueue := by
  unfold Line.countHostResponse
  split
  · exact ⟨.counters x _, rfl⟩
  · exact ⟨.counters x _, rfl⟩
  · exact ⟨.refl x, rfl⟩
  · exact ⟨.refl x, rfl⟩

/-- The slot's handling of its attempt's outcome: the slot, the entry and the counters move on (R53), and the slot is not ACTIVE. -/
theorem State.slotOutcome_work (s : State) (l : LineId) (i : SlotId) (a : Attempt) (o : AttemptOutcome) :
    s.TableWork (s.slotOutcome l i a o) ∧ ∀ y ∈ (s.slotOutcome l i a o).slot l i, y.state ≠ .active := by
  unfold State.slotOutcome
  extract_lets s1 s2 before detaching s3 after v
  have h1 : s.TableWork s1 := .modSlot fun x _ => .countAttempt x o
  have h2 : s1.TableWork s2 := .modLine (Line.TableWork.countHostResponse _ o).1 (Line.TableWork.countHostResponse _ o).2
  have h3 : s2.TableWork s3 := by
    unfold s3
    split
    · exact .entryOutcome s2 _ _ a o
    · exact .refl s2
  refine ⟨((h1.trans h2).trans h3).trans (.modSlot fun x _ => (x.decideOutcome_moved v o).1), fun y hy => ?_⟩
  rw [State.slot, State.modSlot, State.line_modLine_same, Line.slot_modSlot_same, Option.mem_def, Option.map_eq_some_iff] at hy
  obtain ⟨x, -, rfl⟩ := hy
  exact (x.decideOutcome_moved v o).2

/-! ## The Scanner (chapter 6) -/

theorem Line.SideWork.scanner (x : Line) (sc : Scanner) : x.SideWork { x with scanner := sc } := ⟨rfl, .of_eq rfl⟩

theorem State.SideWork.setScanner (s : State) (l : LineId) (f : Line → Scanner) :
    s.SideWork (s.modLine l fun x => { x with scanner := f x }) :=
  .modLine (.scanner _ _) rfl

theorem State.SideWork.dropPoll (s : State) (l : LineId) : s.SideWork (s.dropPoll l) := by
  unfold State.dropPoll
  dsimp only
  split
  · exact .trans (.setScanner s l _) (.returnReservation _ _)
  · exact .trans (.setScanner s l _) (.returnReservation _ _)
  · exact .refl s

theorem State.SideWork.endPoll (s : State) (l : LineId) : s.SideWork (s.endPoll l) := by
  unfold State.endPoll
  dsimp only
  split
  · exact .trans (.setScanner s l _) (.returnReservation _ _)
  · exact .setScanner s l _

theorem State.SideWork.poolClaim {s t : State} {i : Nat} {a : Addr} (h : s.poolClaim = some ((i, a), t)) : s.SideWork t := by
  obtain ⟨p, hp, -, -, -, rfl⟩ := State.poolClaim_some h
  exact
    { same := rfl, lines := fun _ => .refl _, keys := .refl s, queues := .congr (fun _ => rfl) fun _ => rfl, crings := .of_eq rfl
      pool := .inr ⟨p, hp, _, rfl, rfl, Nat.mod_lt _ (by unfold ringSize; positivity)⟩ }

theorem State.TableWork.modCounters (s : State) (l : LineId) (f : Line → Counters) :
    s.TableWork (s.modLine l fun x => { x with counters := f x }) :=
  .modLine (.counters _ _) rfl

theorem State.TableWork.scanDelivered (s : State) (l : LineId) (e : EntryId) (detaching : Bool) (a : Attempt) :
    s.TableWork (s.scanDelivered l e detaching a) := by
  unfold State.scanDelivered
  dsimp only
  refine .trans (t := s.modLine l Line.countDelivered) (.modLine (.counters _ _) rfl) ?_
  split
  · exact .freeEntry _ e
  · exact .trans (.stationDelivered _ e _ _) (.scheduleNext _ e)

theorem State.SideWork.scanOutcome (s : State) (l : LineId) (e : EntryId) (detaching : Bool) (a : Attempt) (o : AttemptOutcome) :
    s.SideWork (s.scanOutcome l e detaching a o) := by
  have hdelivered : ∀ t : State, t.SideWork ((t.scanDelivered l e detaching a).endPoll l) := fun t =>
    .trans (State.TableWork.scanDelivered t l e detaching a).side (.endPoll _ l)
  have hdetach : ∀ t u : State, t.TableWork u → t.SideWork ((if detaching then t.freeDetaching e else u).endPoll l) := by
    intro t u h
    split
    · exact .trans (State.TableWork.freeEntry t e).side (.endPoll _ l)
    · exact .trans h.side (.endPoll _ l)
  have hcount : ∀ f : Line → Counters, s.SideWork (s.modLine l fun x => { x with counters := f x }) := fun f =>
    (State.TableWork.modCounters s l f).side
  unfold State.scanOutcome
  split
  · split
    · next h => exact .trans (.poolClaim h) (.trans (.setScanner _ l _) (State.TableWork.scanDelivered _ l e detaching a).side)
    · exact .trans (hcount fun x => { x.counters with poolStarves := satSucc 4294967295 x.counters.poolStarves })
        (hdetach _ _ (.stationRedelivery _ e))
  · exact .trans (hcount fun x => { x.counters with busy := satSucc 4294967295 x.counters.busy }) (hdetach _ _ (.stationBusy _ e))
  · exact hdelivered s
  · exact hdelivered s
  · exact hdelivered s
  · exact hdetach s _ (.scheduleNext s e)
  · exact hdetach s _ (.trans (.failureAccounting s e _) (.scheduleNext _ e))
  · exact .endPoll s l

theorem State.SideWork.handToRequester (s : State) (l : LineId) (a : Attempt) (o : AttemptOutcome) :
    s.SideWork (s.handToRequester l a o) := by
  unfold State.handToRequester
  split
  · exact (State.slotOutcome_work s l _ a o).1.side
  · split
    · exact .scanOutcome s l _ _ a o
    · exact .refl s

theorem State.SideWork.deliveryDecided (s : State) (l : LineId) (d : Delivery) (status : Status) :
    s.SideWork (s.deliveryDecided l d status) := by
  unfold State.deliveryDecided
  dsimp only
  split
  · exact .trans (.setScanner s l _) (State.TableWork.requestWrite _ _ _).side
  · exact .setScanner s l _

theorem State.SideWork.deliveryAddressed (s : State) (l : LineId) (d : Delivery) (buffer : Addr) :
    s.SideWork (s.deliveryAddressed l d buffer) := by
  unfold State.deliveryAddressed
  dsimp only
  split
  · exact .deliveryDecided s l _ _
  · exact .setScanner s l _

theorem State.SideWork.scanClaimPlace (s : State) (l : LineId) : s.SideWork (s.scanClaimPlace l) := by
  unfold State.scanClaimPlace
  split
  · exact .refl s
  · split
    · exact .trans (.reserve s _) (.setScanner _ l _)
    · exact .modLine ⟨rfl, .of_eq rfl⟩ rfl

end Sys2Proof.Machine

/-! # What a line's events leave of the state (chapter 4)

`State.LineWork s t`: `t` is `s` with lines, stations, completion ring requests and the pool's head moved on and time gone by; no slot is
taken or freed and no record read begins or ends. -/

namespace Sys2Proof.Machine

/-- A line holds records of the rings that it held records of, slot by slot, and reads of the ring it read of. -/
structure Line.Held (x y : Line) : Prop where
  slots : ∀ i, (y.slot i).map (·.ring) = (x.slot i).map (·.ring)
  read : y.read.map (·.ring) = x.read.map (·.ring)

structure State.LineWork (s t : State) : Prop where
  same : t = { s with
    lines := t.lines, stations := t.stations, crings := t.crings, pool := t.pool, deviceTime := t.deviceTime }
  lines : ∀ l, (s.line l).Held (t.line l)
  keys : s.KeysKept t
  queues : s.QueuesOk → t.QueuesOk
  crings : s.CRingsMoved t
  pool : PoolMoved s.pool t.pool

theorem Line.Held.refl (x : Line) : x.Held x := ⟨fun _ => rfl, rfl⟩

theorem Line.Held.trans {x y z : Line} (h : x.Held y) (k : y.Held z) : x.Held z :=
  ⟨fun i => (k.slots i).trans (h.slots i), k.read.trans h.read⟩

/-- A line whose slots and record read are as they were. -/
theorem Line.Held.of_eq {x y : Line} (hs : y.slots = x.slots) (hr : y.read = x.read) : x.Held y :=
  ⟨fun i => by simp [Line.slot, hs], by rw [hr]⟩

theorem Line.SlotsMoved.ring_eq {x y : Line} (h : x.SlotsMoved y) (i : SlotId) :
    (y.slot i).map (·.ring) = (x.slot i).map (·.ring) := by
  cases hx : x.slot i with
  | none => rw [h.free i hx]
  | some a =>
    obtain ⟨b, hb, hab⟩ := h.used i a hx
    rw [Option.mem_def.mp hb, Option.map_some, Option.map_some, hab.ring]

theorem Line.SideWork.held {x y : Line} (h : x.SideWork y) : x.Held y := ⟨h.slots.ring_eq, by rw [h.rest]⟩

theorem State.LineWork.refl (s : State) : s.LineWork s := ⟨rfl, fun _ => .refl _, .refl s, id, .refl s, .inl rfl⟩

theorem State.LineWork.trans {s t u : State} (h : s.LineWork t) (k : t.LineWork u) : s.LineWork u :=
  ⟨by rw [k.same, h.same], fun l => (h.lines l).trans (k.lines l), h.keys.trans k.keys, k.queues ∘ h.queues, h.crings.trans k.crings,
    h.pool.trans k.pool⟩

theorem State.SideWork.work {s t : State} (h : s.SideWork t) : s.LineWork t :=
  ⟨by rw [h.same], fun l => (h.lines l).held, h.keys, h.queues, h.crings, h.pool⟩

theorem State.TableWork.work {s t : State} (h : s.TableWork t) : s.LineWork t := h.side.work

theorem State.LineWork.modLine {s : State} {l : LineId} {f : Line → Line} (h : (s.line l).Held (f (s.line l)))
    (hq : (f (s.line l)).noticeQueue = (s.line l).noticeQueue) : s.LineWork (s.modLine l f) where
  same := rfl
  lines := State.modLine_lines .refl h
  keys := .refl s
  queues := .congr (State.modLine_lines (R := fun x y => y.noticeQueue = x.noticeQueue) (fun _ => rfl) hq) fun _ => rfl
  crings := .of_eq rfl
  pool := .inl rfl

theorem State.LineWork.reachUs (s : State) (t : Nat) : s.LineWork (s.reachUs t) :=
  ⟨rfl, fun _ => .refl _, .refl s, .congr (fun _ => rfl) fun _ => rfl, .of_eq rfl, .inl rfl⟩

/-! ## The parts of a line's exchange -/

/-- A change of a line that leaves its slots, its record read and its notice queue. -/
structure Line.Kept (x y : Line) : Prop where
  slots : y.slots = x.slots
  read : y.read = x.read
  noticeQueue : y.noticeQueue = x.noticeQueue

theorem Line.Kept.refl (x : Line) : x.Kept x := ⟨rfl, rfl, rfl⟩

theorem Line.Kept.trans {x y z : Line} (h : x.Kept y) (k : y.Kept z) : x.Kept z :=
  ⟨k.slots.trans h.slots, k.read.trans h.read, k.noticeQueue.trans h.noticeQueue⟩

theorem State.LineWork.ofKept {s : State} {l : LineId} {f : Line → Line} (h : ∀ x : Line, x.Kept (f x)) :
    s.LineWork (s.modLine l f) :=
  .modLine (.of_eq (h _).slots (h _).read) (h _).noticeQueue

theorem Line.Kept.beginCharacter (x : Line) : x.Kept x.beginCharacter := by
  unfold Line.beginCharacter
  split
  · exact ⟨rfl, rfl, rfl⟩
  · exact .refl x

theorem Line.Kept.beginSending (x : Line) : x.Kept x.beginSending :=
  .trans (y := { x with
    phase := some .sending, timers := { x.timers with lead := none }, pins := { x.pins with clocking := x.isClocked } })
    ⟨rfl, rfl, rfl⟩ (.beginCharacter _)

theorem Line.Kept.beginExchange (x : Line) (now : Nat) (a : Attempt) : x.Kept (x.beginExchange now a) := by
  have key : ∀ y : Line, x.Kept y → x.Kept (match x.config with
      | some c => if c.lead = 0 then y.beginSending else y
      | none => y) := by
    intro y h
    split
    · split
      · exact h.trans (.beginSending y)
      · exact h
    · exact h
  exact key _ ⟨rfl, rfl, rfl⟩

theorem Line.Kept.restartQuiet (x : Line) (now : Nat) : x.Kept (x.restartQuiet now) := by
  unfold Line.restartQuiet
  split
  · exact ⟨rfl, rfl, rfl⟩
  · exact .refl x

theorem Line.Kept.countOutcome (x : Line) (o : AttemptOutcome) : x.Kept (x.countOutcome o) := by
  unfold Line.countOutcome
  split <;> exact ⟨rfl, rfl, rfl⟩

theorem Line.Kept.takeEcho (x : Line) (r : Report) : x.Kept (x.takeEcho r) := by
  unfold Line.takeEcho
  split
  · exact .refl x
  · split
    · exact .refl x
    · split <;> exact ⟨rfl, rfl, rfl⟩

/-! ## The end of a line's work (R26, R61, R69, R71, R72) -/

/-- The slot of an abandoned attempt (R61). -/
theorem Slot.Moved.abandoned (x : Slot) (status : Status) : x.Moved ({ x with attempts := x.attempts + 1 }.finishPlain status) :=
  ⟨rfl, rfl, rfl, rfl, fun h => by simp [Slot.finishPlain, Slot.finish] at h⟩

theorem State.LineWork.abandonAttempt (s : State) (l : LineId) (status : Status) (free : Bool) :
    s.LineWork (s.abandonAttempt l status free) := by
  unfold State.abandonAttempt
  split
  · exact .refl s
  · next a _ =>
    extract_lets t
    have ht : s.LineWork t := by
      refine .trans ?_ (State.TableWork.abandonStation _ l a.addr free).work
      exact .ofKept fun _ => ⟨rfl, rfl, rfl⟩
    refine ht.trans ?_
    split
    · refine .trans ?_ (State.TableWork.requestTxn _ l).work
      exact (State.TableWork.modSlot fun y _ => .abandoned y status).work
    · exact .refl _

/-- What an event that ends the line's work makes of its slots and its record read (R42, R46). -/
def Line.cutWork (status : Status) (x : Line) : Line :=
  { x.mapSlots (·.cutOff status) with read := x.read.map fun r => { r with events := r.events ++ [.decided status] } }

theorem Line.Held.cutWork (x : Line) (status : Status) : x.Held (x.cutWork status) where
  slots i := (Line.SlotsMoved.mapSlots fun _ a _ => Slot.Moved.cutOff a status).ring_eq i
  read := by simp [Line.cutWork, Function.comp_def]

theorem State.endWork_eq (s : State) (l : LineId) (status : Status) (free : Bool) :
    s.endWork l status free = ((s.abandonAttempt l status free).dropPoll l).modLine l (Line.cutWork status) := rfl

theorem State.LineWork.endWork (s : State) (l : LineId) (status : Status) (free : Bool) : s.LineWork (s.endWork l status free) := by
  rw [State.endWork_eq]
  exact .trans (.abandonAttempt s l status free) (.trans (State.SideWork.dropPoll _ l).work (.modLine (.cutWork _ status) rfl))

theorem State.LineWork.faultLine (s : State) (l : LineId) (cause : LineFault) : s.LineWork (s.faultLine l cause) :=
  .trans (.endWork s l _ _) (.ofKept fun _ => ⟨rfl, rfl, rfl⟩)

theorem State.LineWork.abortLine (s : State) (l : LineId) : s.LineWork (s.abortLine l) :=
  .trans (.endWork s l _ _) (.ofKept fun x => by split <;> exact ⟨rfl, rfl, rfl⟩)

theorem State.LineWork.disableLine (s : State) (l : LineId) : s.LineWork (s.disableLine l) := by
  unfold State.disableLine
  split
  · exact .abortLine s l
  · exact .abortLine s l
  · exact .trans (.endWork s l _ _) (.ofKept fun _ => ⟨rfl, rfl, rfl⟩)
  · exact .trans (.endWork s l _ _) (.ofKept fun _ => ⟨rfl, rfl, rfl⟩)
  · exact .trans (.endWork s l _ _) (.ofKept fun _ => ⟨rfl, rfl, rfl⟩)

theorem State.LineWork.foldl {f : State → LineId → State} (h : ∀ (s : State) l, s.LineWork (f s l)) (ls : List LineId) (s : State) :
    s.LineWork (ls.foldl f s) := by
  induction ls generalizing s with
  | nil => exact .refl s
  | cons l ls ih => exact .trans (h s l) (ih (f s l))

/-! ## The end of an attempt (R77, R82) -/

theorem State.LineWork.endAttempt (s : State) (l : LineId) (o : AttemptOutcome) (kind : Option RespKind) :
    s.LineWork (s.endAttempt l o kind) := by
  unfold State.endAttempt
  split
  · exact .ofKept fun _ => ⟨rfl, rfl, rfl⟩
  · next a _ =>
    extract_lets s1 s2 s3 s4
    have h1 : s.LineWork s1 := .ofKept fun x => by
      obtain ⟨hs, hr, hq⟩ := Line.Kept.countOutcome (x.enterSettle s.nowUs) o
      exact ⟨hs, hr, hq⟩
    have h2 : s1.LineWork s2 := (State.TableWork.countExchange s1 l a.addr kind).work
    have h3 : s2.LineWork s3 := (State.SideWork.handToRequester s2 l a o).work
    have h4 : s.LineWork s4 := .trans (.trans (.trans h1 h2) h3) (.ofKept fun _ => ⟨rfl, rfl, rfl⟩)
    split
    · exact h4.trans (.faultLine s4 l .conflict)
    · exact h4

theorem State.LineWork.failAttempt (s : State) (l : LineId) (c : Cause) : s.LineWork (s.failAttempt l c) :=
  .endAttempt s l _ _

/-! ## Characters (R3 to R7, R75 to R85) -/

theorem State.LineWork.leadEnds (s : State) (l : LineId) : s.LineWork (s.leadEnds l) := by
  unfold State.leadEnds
  dsimp only
  split
  · split
    · exact .trans (.reachUs s _) (.ofKept Line.Kept.beginSending)
    · exact .refl s
  · exact .refl s

theorem State.LineWork.characterEnds (s : State) (l : LineId) : s.LineWork (s.characterEnds l) := by
  unfold State.characterEnds
  extract_lets x n t
  have ht : s.LineWork t := .ofKept fun _ => ⟨rfl, rfl, rfl⟩
  split
  · split
    · exact .ofKept fun _ => ⟨rfl, rfl, rfl⟩
    · split
      · exact .refl s
      · split
        · exact ht.trans (.failAttempt t l _)
        · split
          · exact ht.trans (.ofKept Line.Kept.beginCharacter)
          · unfold State.sendingEnds
            split
            · exact ht.trans (.endAttempt t l _ _)
            · exact ht.trans (.ofKept fun _ => ⟨rfl, rfl, rfl⟩)
  · exact .refl s

theorem State.LineWork.storeCharacter (s : State) (l : LineId) (a : Attempt) (v : Byte) : s.LineWork (s.storeCharacter l a v) := by
  unfold State.storeCharacter
  split
  · exact .ofKept fun _ => ⟨rfl, rfl, rfl⟩
  · refine .trans ?_ (.failAttempt _ l _)
    exact .ofKept fun _ => ⟨rfl, rfl, rfl⟩
  · refine .trans ?_ (.endAttempt _ l _ _)
    exact .ofKept fun _ => ⟨rfl, rfl, rfl⟩

theorem State.LineWork.awaitCharacter (s : State) (l : LineId) (a : Attempt) (r : Report) : s.LineWork (s.awaitCharacter l a r) := by
  unfold State.awaitCharacter
  split
  · exact .failAttempt s l _
  · split
    · extract_lets t
      have ht : s.LineWork t := .ofKept fun _ => ⟨rfl, rfl, rfl⟩
      split
      · exact ht.trans (.failAttempt t l _)
      · exact ht
    · split
      · exact .failAttempt s l _
      · split
        · exact .ofKept fun _ => ⟨rfl, rfl, rfl⟩
        · exact .failAttempt s l _

theorem State.LineWork.receiveCharacter (s : State) (l : LineId) (a : Attempt) (r : Report) :
    s.LineWork (s.receiveCharacter l a r) := by
  unfold State.receiveCharacter
  split
  · exact .failAttempt s l _
  · split
    · exact .failAttempt s l _
    · split
      · exact .failAttempt s l _
      · exact .storeCharacter s l a _

theorem State.LineWork.asyncReport (s : State) (l : LineId) (r : Report) : s.LineWork (s.asyncReport l r) := by
  unfold State.asyncReport
  extract_lets t x
  have ht : s.LineWork t := .ofKept fun _ => ⟨rfl, rfl, rfl⟩
  refine ht.trans ?_
  split
  · exact .ofKept fun y => .trans (y := y.countStray) ⟨rfl, rfl, rfl⟩ (.restartQuiet _ _)
  · split
    · exact .refl t
    · exact .ofKept fun _ => ⟨rfl, rfl, rfl⟩
    · exact .ofKept fun y => .trans (y := y.countLate) ⟨rfl, rfl, rfl⟩ (.restartQuiet _ _)
    · exact .ofKept fun y => .takeEcho y r
    · exact .failAttempt t l _
    · split
      · exact .refl t
      · exact .awaitCharacter t l _ r
    · split
      · exact .refl t
      · exact .receiveCharacter t l _ r

theorem State.LineWork.clockedCharacter (s : State) (l : LineId) (c : LineConfig) (v : Byte) :
    s.LineWork (s.clockedCharacter l c v) := by
  unfold State.clockedCharacter
  dsimp only
  split
  · split
    · exact .refl s
    · split
      · exact .ofKept fun _ => ⟨rfl, rfl, rfl⟩
      · split
        · exact .ofKept fun _ => ⟨rfl, rfl, rfl⟩
        · exact .failAttempt s l _
  · exact .storeCharacter s l _ v
  · exact .refl s

theorem State.LineWork.characterArrives (s : State) (l : LineId) (raw : RawChar) : s.LineWork (s.characterArrives l raw) := by
  unfold State.characterArrives
  split
  · split
    · exact .refl s
    · split
      · split
        · exact .asyncReport s l _
        · exact .refl s
      · exact .clockedCharacter s l _ _
  · exact .refl s

theorem State.LineWork.rxdTakes (s : State) (l : LineId) (level : Level) : s.LineWork (s.rxdTakes l level) := by
  unfold State.rxdTakes
  dsimp only
  split
  · exact .refl s
  · refine .ofKept fun y => ?_
    split
    · split
      · exact ⟨rfl, rfl, rfl⟩
      · exact .trans (y := { y with pins := { y.pins with rxd := .mark }, timers := { y.timers with stuck := none } })
          ⟨rfl, rfl, rfl⟩ (.restartQuiet _ _)
    · exact ⟨rfl, rfl, rfl⟩

theorem State.LineWork.falseStartTaken (s : State) (l : LineId) : s.LineWork (s.falseStartTaken l) := by
  unfold State.falseStartTaken
  dsimp only
  split
  · have ht : s.LineWork (s.modLine l fun y => { y with inReception := false }.restartQuiet s.nowUs) :=
      .ofKept fun y => .trans (y := { y with inReception := false }) ⟨rfl, rfl, rfl⟩ (.restartQuiet _ _)
    split
    · exact ht.trans (.failAttempt _ l _)
    · exact ht
  · exact .refl s

/-! ## Timers (R28, R65, R66, R79, R80, R83, R84, R108) -/

theorem State.LineWork.responseExpires (s : State) (l : LineId) : s.LineWork (s.responseExpires l) := by
  unfold State.responseExpires
  dsimp only
  split
  · split
    · exact .refl s
    · split
      · split
        · exact .failAttempt s l _
        · exact .refl s
      · split
        · exact .refl s
        · split
          · exact .trans (.reachUs s _) (.ofKept fun _ => ⟨rfl, rfl, rfl⟩)
          · exact .trans (.reachUs s _) (.failAttempt _ l _)
  · exact .refl s

theorem State.LineWork.gapExpires (s : State) (l : LineId) : s.LineWork (s.gapExpires l) := by
  unfold State.gapExpires
  split
  · exact .refl s
  · split
    · exact .trans (.reachUs s _) (.failAttempt _ l _)
    · exact .refl s

theorem State.LineWork.settleExpires (s : State) (l : LineId) : s.LineWork (s.settleExpires l) := by
  unfold State.settleExpires
  split
  · exact .refl s
  · split
    · exact .trans (.reachUs s _) (.ofKept fun _ => ⟨rfl, rfl, rfl⟩)
    · exact .refl s

theorem State.LineWork.settleLimitExpires (s : State) (l : LineId) : s.LineWork (s.settleLimitExpires l) := by
  unfold State.settleLimitExpires
  split
  · exact .refl s
  · split
    · exact .trans (.reachUs s _) (.faultLine _ l _)
    · exact .refl s

theorem State.LineWork.startQuietExpires (s : State) (l : LineId) : s.LineWork (s.startQuietExpires l) := by
  unfold State.startQuietExpires
  split
  · exact .refl s
  · split
    · exact .trans (.reachUs s _) (.ofKept fun _ => ⟨rfl, rfl, rfl⟩)
    · exact .refl s

theorem State.LineWork.startLimitExpires (s : State) (l : LineId) : s.LineWork (s.startLimitExpires l) := by
  unfold State.startLimitExpires
  split
  · exact .refl s
  · split
    · exact .trans (.reachUs s _) (.faultLine _ l _)
    · exact .refl s

theorem State.LineWork.clockedWaitEnds (s : State) (l : LineId) : s.LineWork (s.clockedWaitEnds l) := by
  unfold State.clockedWaitEnds
  split
  · exact .refl s
  · split
    · exact .trans (.reachUs s _) (.ofKept fun _ => ⟨rfl, rfl, rfl⟩)
    · exact .refl s

theorem State.LineWork.stopIfDisabling (s : State) (l : LineId) : s.LineWork (s.stopIfDisabling l) := by
  unfold State.stopIfDisabling
  split
  · exact .ofKept fun _ => ⟨rfl, rfl, rfl⟩
  · exact .refl s

theorem State.LineWork.stuckExpires (s : State) (l : LineId) : s.LineWork (s.stuckExpires l) := by
  unfold State.stuckExpires
  split
  · exact .refl s
  · split
    · exact .trans (.trans (.reachUs s _) (.faultLine _ l _)) (.stopIfDisabling _ l)
    · exact .refl s

theorem State.LineWork.holdOffExpires (s : State) (e : EntryId) : s.LineWork (s.holdOffExpires e) := by
  unfold State.holdOffExpires
  split
  · exact .refl s
  · split
    · exact .refl s
    · split
      · exact .trans (.reachUs s _) (State.TableWork.endHoldOff _ e).work
      · exact .refl s

theorem State.LineWork.dueReached (s : State) (e : EntryId) : s.LineWork (s.dueReached e) := by
  unfold State.dueReached
  split
  · exact .refl s
  · split
    · exact .reachUs s _
    · exact .refl s

/-! ## Payloads, deliveries and stops -/

theorem Slot.Moved.payload (x : Slot) (bs : List Byte) : x.Moved { x with payload := bs } := ⟨rfl, rfl, rfl, rfl, id⟩

theorem Slot.Moved.to {x : Slot} {st : SlotState} (h : st ≠ .active) : x.Moved { x with state := st } :=
  ⟨rfl, rfl, rfl, rfl, fun e => absurd e h⟩

theorem State.TableWork.payloadLoaded (s : State) (l : LineId) (i : SlotId) (bytes : List Byte) :
    s.TableWork (s.payloadLoaded l i bytes) := by
  unfold State.payloadLoaded
  split
  · exact .refl s
  · split
    · exact .modSlot fun a _ => .finishPlain a _
    · extract_lets r t
      have ht : s.TableWork t := .modSlot fun a _ => .payload a _
      split
      · exact ht.trans (.modSlot fun a _ => .to nofun)
      · exact ht.trans (.enterReady t l i)

theorem State.TableWork.payloadFailed (s : State) (l : LineId) (i : SlotId) : s.TableWork (s.payloadFailed l i) :=
  .modSlot fun a _ => ⟨rfl, rfl, rfl, rfl, fun h => by simp [Slot.finishPlain, Slot.finish] at h⟩

theorem State.TableWork.beginLoading (s : State) (l : LineId) (i : SlotId) : s.TableWork (s.beginLoading l i) := by
  unfold State.beginLoading
  split
  · exact .refl s
  · extract_lets t
    have ht : s.TableWork t := .modSlot fun a _ => .to nofun
    split
    · exact ht.trans (.payloadLoaded t l i [])
    · split
      · exact ht
      · exact ht.trans (.payloadFailed t l i)

theorem State.TableWork.payloadReadEnds (s : State) (l : LineId) (i : SlotId) (r : BusRead) :
    s.TableWork (s.payloadReadEnds l i r) := by
  unfold State.payloadReadEnds
  split
  · split
    · exact .payloadLoaded s l i _
    · exact .payloadFailed s l i
  · exact .refl s

theorem State.LineWork.gracefulStop (s : State) (l : LineId) : s.LineWork (s.gracefulStop l) := by
  unfold State.gracefulStop
  extract_lets t u
  have ht : s.LineWork t := .ofKept fun _ => ⟨rfl, rfl, rfl⟩
  have hu : t.LineWork u := by
    unfold u
    split
    · exact (State.SideWork.dropPoll t l).work
    · exact .refl t
  exact (ht.trans hu).trans (State.TableWork.abortRedeliveryDeferred u l).work

theorem State.LineWork.stopFaultedForAbort (s : State) : s.LineWork s.stopFaultedForAbort := by
  rcases s.stopFaultedForAbort_eq with e | ⟨l, -, e⟩
  · rw [e]; exact .refl s
  · rw [e]; exact .ofKept fun _ => ⟨rfl, rfl, rfl⟩

theorem Slot.Moved.ringAborted (x : Slot) : x.Moved x.ringAborted := by
  unfold Slot.ringAborted
  split
  · exact ⟨rfl, rfl, rfl, rfl, id⟩
  · exact .cutOff x _

theorem Line.Held.ringAborted (x : Line) (r : RingId) : x.Held (x.ringAborted r) where
  slots i := (Line.SlotsMoved.mapSlots fun _ a _ => Slot.Moved.ite (Slot.Moved.ringAborted a)).ring_eq i
  read := by
    unfold Line.ringAborted
    cases x.read with
    | none => rfl
    | some rd => simp only [Option.map_some]; split <;> rfl

theorem Line.Held.detachSlots (x : Line) (a : Nat) : x.Held (x.detachSlots a) where
  slots i := (Line.SlotsMoved.mapSlots fun _ a _ => Slot.Moved.ite (Slot.Moved.cutOff a _)).ring_eq i
  read := by simp [Line.detachSlots, Function.comp_def]

end Sys2Proof.Machine

/-! # The laws that every operation keeps one by one

`State.Keeps s t`: each of the laws of host memory, keys, notice queues, ring indices, rest and in-flight counts that holds of `s` holds
of `t`. Each operation keeps them, and so does a row of operations. -/

namespace Sys2Proof.Machine

structure State.Keeps (s t : State) : Prop where
  mem : s.MemOk → t.MemOk
  keys : s.KeysOk → t.KeysOk
  queues : s.QueuesOk → t.QueuesOk
  rings : s.RingsOk → t.RingsOk
  rest : s.RestOk → t.RestOk
  inFlight : s.RestOk → s.InFlightOk → t.InFlightOk

theorem State.Keeps.refl (s : State) : s.Keeps s := ⟨id, id, id, id, id, fun _ => id⟩

theorem State.Keeps.trans {s t u : State} (h : s.Keeps t) (k : t.Keeps u) : s.Keeps u :=
  ⟨k.mem ∘ h.mem, k.keys ∘ h.keys, k.queues ∘ h.queues, k.rings ∘ h.rings, k.rest ∘ h.rest,
    fun hr hi => k.inFlight (h.rest hr) (h.inFlight hr hi)⟩

/-! ## What each law reads of a state -/

/-- A part in which work is in hand is not bound to rest (R62). -/
theorem State.RestOk.of_working {s : State} (h : s.working = true) : s.RestOk := fun e => absurd h (by simp [e])

/-- A part in which no work is in hand has no count to keep (R39). -/
theorem State.InFlightOk.of_not_working {s : State} (h : s.working = false) : s.InFlightOk := fun e => absurd e (by simp [h])

theorem Line.holdsOf_eq (x : Line) (r : RingId) (i : SlotId) : x.holdsOf r i = ((x.slot i).map (·.ring) == some r) := by
  unfold Line.holdsOf
  cases x.slot i <;> simp

theorem Line.Held.slotsOf {x y : Line} (h : x.Held y) (r : RingId) : y.slotsOf r = x.slotsOf r := by
  unfold Line.slotsOf
  simp only [funext (Line.holdsOf_eq _ r), h.slots]

/-- A submission ring with the line and the in-flight count it had. -/
def SubRing.Counts (x : SubRing) : Option LineId × Nat := (x.line, x.inFlight)

theorem map_counts_some {a b : Option SubRing} (h : b.map SubRing.Counts = a.map SubRing.Counts) {x : SubRing} (hx : x ∈ a) :
    ∃ y ∈ b, y.line = x.line ∧ y.inFlight = x.inFlight := by
  rw [Option.mem_def.mp hx, Option.map_some, Option.map_eq_some_iff] at h
  obtain ⟨y, hy, e⟩ := h
  exact ⟨y, hy, congrArg Prod.fst e, congrArg Prod.snd e⟩

/-- What the in-flight law reads of a state: of each ring its line and count, of each line the rings its records are of. -/
theorem State.InFlightOk.congr {s t : State} (hw : t.working = true → s.working = true)
    (hr : ∀ r, (t.ring r).map SubRing.Counts = (s.ring r).map SubRing.Counts) (hl : ∀ l, (s.line l).Held (t.line l))
    (h : s.InFlightOk) : t.InFlightOk := by
  intro hwt
  obtain ⟨h0, hslots, hreads, hcounts⟩ := h (hw hwt)
  refine ⟨fun y hy => ?_, fun l i b hb => ?_, fun l rd hrd => ?_, fun r y hy l hyl => ?_⟩
  · obtain ⟨x, hx, e, -⟩ := map_counts_some (hr 0).symm hy
    rw [← e]; exact h0 x hx
  · have hmap := (hl l).slots i
    rw [show (t.line l).slot i = some b from hb, Option.map_some, eq_comm, Option.map_eq_some_iff] at hmap
    obtain ⟨a, ha, e⟩ := hmap
    obtain ⟨x, hx, hxl⟩ := hslots l i a ha
    obtain ⟨y, hy, e1, -⟩ := map_counts_some (hr a.ring) hx
    exact ⟨y, e ▸ hy, e1.trans hxl⟩
  · have hmap := (hl l).read
    rw [Option.mem_def.mp hrd, Option.map_some, eq_comm, Option.map_eq_some_iff] at hmap
    obtain ⟨rd', hrd', e⟩ := hmap
    obtain ⟨x, hx, hxl, hlt⟩ := hreads l rd' hrd'
    obtain ⟨y, hy, e1, e2⟩ := map_counts_some (hr rd'.ring) hx
    exact ⟨y, e ▸ hy, e1.trans hxl, e2 ▸ hlt⟩
  · obtain ⟨x, hx, e1, e2⟩ := map_counts_some (hr r).symm hy
    rw [(hl l).slotsOf, ← e2]
    exact hcounts r x hx l (e1.trans hyl)

theorem State.CRingsMoved.ok {s t : State} (h : s.CRingsMoved t) (hs : ∀ r, ∀ c ∈ s.cring r, c.Ok) :
    ∀ r, ∀ c ∈ t.cring r, c.Ok := by
  intro r d hd
  cases hc : s.cring r with
  | none => rw [h.absent r hc] at hd; cases hd
  | some c =>
    obtain ⟨d', hd', e⟩ := h.present r c hc
    obtain rfl : d' = d := Option.mem_unique hd' hd
    rw [CRing.Moved] at e
    rw [e]
    exact hs r c hc

theorem PoolMoved.ok {p q : Option Pool} (h : PoolMoved p q) (hp : ∀ x ∈ p, x.Ok) : ∀ y ∈ q, y.Ok := by
  rcases h with rfl | ⟨x, hx, y, hy, e, hlt⟩
  · exact hp
  · intro z hz
    obtain rfl : y = z := Option.mem_unique hy hz
    obtain ⟨h1, h2, -, h4⟩ := hp x hx
    rw [e]
    exact ⟨h1, h2, hlt, h4⟩

/-! ## Registers, time and the line's own events -/

/-- Registers, causes, time, choices and the queue are in none of the laws. -/
theorem State.Keeps.ofRegs {s t : State} (h : t = { s with
    enable := t.enable, intEnable := t.intEnable, bootAddr := t.bootAddr, postError := t.postError, intcause := t.intcause
    deviceTime := t.deviceTime, choices := t.choices, pending := t.pending }) : s.Keeps t := by
  rw [h]
  exact ⟨id, id, id, id, id, fun _ => id⟩

theorem State.LineWork.working {s t : State} (h : s.LineWork t) : t.working = s.working := by rw [h.same]; rfl

theorem State.LineWork.keeps {s t : State} (h : s.LineWork t) (hw : s.working = true) : s.Keeps t where
  mem hm := by rw [h.same]; exact hm
  keys := h.keys.keysOk
  queues := h.queues
  rings hr := ⟨by rw [h.same]; exact hr.1, h.crings.ok hr.2.1, h.pool.ok hr.2.2⟩
  rest _ := .of_working (h.working.trans hw)
  inFlight _ := .congr (fun _ => hw) (fun r => by rw [h.same]; rfl) h.lines

theorem State.Keeps.ofAdmin {s : State} (hw : s.working = true) (a : Admin) : s.Keeps { s with admin := a } :=
  { State.Keeps.refl s with rest := fun _ => .of_working hw }

/-! ## Rings (R113, R122, R123, R136) -/

theorem State.Keeps.setRing {s : State} (hw : s.working = true) {r : RingId} {x y : SubRing} (hx : s.ring r = some x)
    (hok : x.Ok → y.Ok) (hc : y.Counts = x.Counts) : s.Keeps (s.setRing r (some y)) where
  mem := id
  keys := id
  queues := id
  rings h := ⟨fun q z hz => by
    by_cases e : q = r
    · subst e
      obtain rfl : y = z := by simpa using hz
      exact hok (h.1 q x hx)
    · rw [State.ring_setRing_ne _ _ e] at hz
      exact h.1 q z hz, h.2⟩
  rest _ := .of_working hw
  inFlight _ := .congr (fun _ => hw) (fun q => by
    by_cases e : q = r
    · subst e; simp [hx, hc]
    · rw [State.ring_setRing_ne _ _ e]) fun _ => .refl _

theorem State.modRing_of_none {s : State} {r : RingId} (h : s.ring r = none) (f : SubRing → SubRing) : s.modRing r f = s := by
  have : vput s.rings r none = s.rings := vget_ext fun q => by
    rw [vget_vput]
    split
    · next e => subst e; exact h.symm
    · rfl
  rw [State.modRing, h, Option.map_none, State.setRing, this]

theorem State.Keeps.modRing {s : State} (hw : s.working = true) {r : RingId} {f : SubRing → SubRing}
    (hok : ∀ x : SubRing, x.Ok → (f x).Ok) (hc : ∀ x, (f x).Counts = x.Counts) : s.Keeps (s.modRing r f) := by
  cases hx : s.ring r with
  | none => rw [State.modRing_of_none hx]; exact .refl s
  | some x =>
    rw [State.modRing, hx, Option.map_some]
    exact .setRing hw hx (hok x) (hc x)

theorem State.Keeps.setCRing {s : State} (hw : s.working = true) {r : CRingId} {y : Option CRing}
    (hok : (∀ x ∈ s.cring r, x.Ok) → ∀ z ∈ y, z.Ok) : s.Keeps (s.setCRing r y) where
  mem := id
  keys := id
  queues := id
  rings h := ⟨h.1, fun q z hz => by
    by_cases e : q = r
    · subst e
      rw [State.cring_setCRing_same] at hz
      exact hok (h.2.1 q) z hz
    · rw [State.cring_setCRing_ne _ _ e] at hz
      exact h.2.1 q z hz, h.2.2⟩
  rest _ := .of_working hw
  inFlight _ := .congr (fun _ => hw) (fun _ => rfl) fun _ => .refl _

theorem State.Keeps.modCRing {s : State} (hw : s.working = true) {r : CRingId} {f : CRing → CRing}
    (hok : ∀ c : CRing, c.Ok → (f c).Ok) : s.Keeps (s.modCRing r f) :=
  .setCRing hw fun h z hz => by
    obtain ⟨c, hc, rfl⟩ := Option.map_eq_some_iff.mp hz
    exact hok c (h c hc)

theorem State.Keeps.setPool {s : State} (hw : s.working = true) {p : Option Pool} (hok : (∀ x ∈ s.pool, x.Ok) → ∀ z ∈ p, z.Ok) :
    s.Keeps { s with pool := p } :=
  { State.Keeps.refl s with
    rings := fun h => ⟨h.1, h.2.1, hok h.2.2⟩
    rest := fun _ => .of_working hw }

theorem ringSize_pos (c : Nat) : 0 < ringSize c := by unfold ringSize; positivity

theorem nextIndex_lt (c i : Nat) : nextIndex (ringSize c) i < ringSize c := Nat.mod_lt _ (ringSize_pos c)

theorem CRing.Ok.signalled {c : CRing} (h : c.Ok) : CRing.Ok { c with unsignalled := 0, timer := none } := by
  obtain ⟨h1, h2, h3, h4, h5, h6, -⟩ := h
  exact ⟨h1, h2, h3, h4, h5, h6, by simp⟩

theorem State.Keeps.signalRing {s : State} (hw : s.working = true) (r : CRingId) : s.Keeps (s.signalRing r) :=
  .trans (t := s.setCause r.val) (.ofRegs rfl) (.modCRing (s := s.setCause r.val) hw fun _ => CRing.Ok.signalled)

theorem satSucc_le (top n : Nat) : satSucc top n ≤ top := by
  unfold satSucc
  split <;> omega

theorem State.Keeps.coalesce {s : State} (hw : s.working = true) (r : CRingId) (urgent : Bool) : s.Keeps (s.coalesce r urgent) := by
  unfold State.coalesce
  extract_lets t
  have ht : s.Keeps t := .modCRing hw fun c h => by
    obtain ⟨h1, h2, h3, h4, h5, h6, -⟩ := h
    exact ⟨h1, h2, h3, h4, h5, h6, satSucc_le 255 _⟩
  have hwt : t.working = true := hw
  split
  · exact ht
  · next c hc =>
    split
    · exact ht.trans (.signalRing hwt r)
    · split
      · exact ht.trans (.signalRing hwt r)
      · split
        · exact ht.trans (.setCRing hwt fun h z hz => by
            obtain rfl := Option.some.inj (Option.mem_def.mp hz)
            exact h c hc)
        · exact ht

/-! ## Host memory (R91, R96) -/

theorem State.Keeps.hostWrite (s : State) (a : Nat) (bs : List Byte) : s.Keeps (s.hostWrite a bs) :=
  { State.Keeps.refl s with mem := fun h => State.hostWrite_memWf h a bs }

theorem State.Keeps.hostWriteMasked (s : State) (a : Nat) (bs : List Byte) (landed : List Bool) :
    s.Keeps (s.hostWriteMasked a bs landed) :=
  { State.Keeps.refl s with mem := fun h => State.hostWriteMasked_memWf h a bs landed }

/-! ## Stations and lines as a whole -/

theorem State.Keeps.modLineConfig {s : State} (hw : s.working = true) {l : LineId} {f : Line → Line} (h : ∀ x : Line, x.Kept (f x)) :
    s.Keeps (s.modLine l f) :=
  (State.LineWork.ofKept h).keeps hw

/-- The notices dropped at the entry to DISABLING leave every queue empty and no notice pending (R37, R120). -/
theorem State.Keeps.dropNotices {s : State} (hw : s.working = true) : s.Keeps s.dropNotices where
  mem := id
  keys := State.KeysKept.keysOk fun e y hy => by
    rw [Option.mem_def, show s.dropNotices.station e = _ from vget_vmap _ _ _, Option.map_eq_some_iff] at hy
    obtain ⟨x, hx, rfl⟩ := hy
    exact ⟨x, hx, rfl, rfl⟩
  queues _ l := by
    have hl : s.dropNotices.line l = { s.line l with linePending := false, noticeQueue := [] } := vget_vmap _ _ _
    have he : ∀ e, s.dropNotices.station e = (s.station e).map fun x => { x with noticePending := false } := fun e => vget_vmap _ _ _
    rw [hl]
    simp [he]
  rings := id
  rest _ := .of_working hw
  inFlight _ := .congr (fun _ => hw) (fun _ => rfl) fun l => by
    rw [show s.dropNotices.line l = { s.line l with linePending := false, noticeQueue := [] } from vget_vmap _ _ _]
    exact .of_eq rfl rfl

/-! ## Writes cut off and the device fault (R62, R176) -/

/-- What a cut-off access changes: host memory, kept in its form, and the count of free choices. -/
structure State.CutWork (s t : State) : Prop where
  same : t = { s with hostMem := t.hostMem, choices := t.choices }
  mem : s.MemOk → t.MemOk

theorem State.CutWork.refl (s : State) : s.CutWork s := ⟨rfl, id⟩

theorem State.CutWork.trans {s t u : State} (h : s.CutWork t) (k : t.CutWork u) : s.CutWork u :=
  ⟨by rw [k.same, h.same], k.mem ∘ h.mem⟩

theorem State.CutWork.foldl {α : Type} {f : State → α → State} (h : ∀ (s : State) a, s.CutWork (f s a)) (as : List α) (s : State) :
    s.CutWork (as.foldl f s) := by
  induction as generalizing s with
  | nil => exact .refl s
  | cons a as ih => exact .trans (h s a) (ih (f s a))

theorem State.CutWork.hostWriteCut (s : State) (a : Nat) (bs : List Byte) : s.CutWork (s.hostWriteCut a bs) :=
  ⟨rfl, fun h => State.hostWriteCut_memWf h a bs⟩

theorem State.CutWork.cutStore (s : State) (x : Slot) : s.CutWork (s.cutStore x) := by
  unfold State.cutStore
  split
  · exact .hostWriteCut s _ _
  · exact .refl s

theorem State.CutWork.cutLine (s : State) (l : LineId) : s.CutWork (s.cutLine l) := by
  unfold State.cutLine
  extract_lets t
  have ht : s.CutWork t := .foldl (fun u i => by
    split
    · exact .cutStore u _
    · exact .refl u) _ s
  refine ht.trans ?_
  split
  · split
    · exact .hostWriteCut t _ _
    · exact .refl t
  · exact .refl t

theorem State.CutWork.cutReport (s : State) : s.CutWork s.cutReport := by
  unfold State.cutReport
  split
  · exact .hostWriteCut s _ _
  · exact .refl s

theorem State.CutWork.cutCompletion (s : State) (r : CRingId) : s.CutWork (s.cutCompletion r) := by
  unfold State.cutCompletion
  split
  · split
    · exact ⟨rfl, fun h => State.hostWrite_memWf h _ _⟩
    · exact .refl s
  · exact .refl s

theorem State.CutWork.cutWrites (s : State) : s.CutWork s.cutWrites :=
  .trans (.foldl State.CutWork.cutLine (List.finRange 8) s)
    (.trans (.cutReport _) (.foldl State.CutWork.cutCompletion (List.finRange 4) _))

theorem State.CutWork.keeps {s t : State} (h : s.CutWork t) : s.Keeps t := by
  have hm := h.mem
  rw [h.same] at hm ⊢
  exact ⟨hm, id, id, id, id, fun _ => id⟩

theorem State.TableWork.foldl {α : Type} {f : State → α → State} (h : ∀ (s : State) a, s.TableWork (f s a)) (as : List α) (s : State) :
    s.TableWork (as.foldl f s) := by
  induction as generalizing s with
  | nil => exact .refl s
  | cons a as ih => exact .trans (h s a) (ih (f s a))

theorem State.TableWork.abandonForFault (s : State) (l : LineId) : s.TableWork (s.abandonForFault l) := by
  unfold State.abandonForFault
  split
  · exact .abandonStation s l _ false
  · exact .refl s

theorem Line.deviceFaulted_rests (x : Line) : x.deviceFaulted.Rests :=
  ⟨rfl, rfl, rfl, rfl, rfl, by simp [Line.allFree, Line.deviceFaulted, Line.slot], rfl, rfl, rfl, rfl⟩

/-- The laws of host memory, keys, queues and ring indices do not ask whether work is in hand. -/
theorem State.TableWork.memOk {s t : State} (h : s.TableWork t) (k : s.MemOk) : t.MemOk := by rw [h.same]; exact k

theorem State.TableWork.ringsOk {s t : State} (h : s.TableWork t) (k : s.RingsOk) : t.RingsOk :=
  ⟨by rw [h.same]; exact k.1, h.crings.ok k.2.1, by rw [h.same]; exact k.2.2⟩

/-- The state a device fault starts from: writes cut off and the stations of attempts in progress told (R26, R96). -/
def State.faultBase (s : State) : State := (List.finRange 8).foldl State.abandonForFault s.cutWrites

theorem State.faultBase_work (s : State) : s.cutWrites.TableWork s.faultBase := .foldl State.TableWork.abandonForFault _ _

theorem State.deviceFault_eq (s : State) (code : FaultCode) : s.deviceFault code = { s.faultBase with
    intcause := s.faultBase.intcause ||| causeMask faultBit, device := .faulted, faultCode := code, loadAddr := none
    lines := vmap Line.deviceFaulted s.faultBase.lines, crings := vmap (Option.map CRing.deviceFaulted) s.faultBase.crings
    admin := s.faultBase.admin.deviceFaulted } := by
  simp only [State.deviceFault, State.faultBase, State.setCause]

/-- The entry to FAULTED leaves the part at rest, whatever it was (R62, R72, R176). -/
theorem State.RestOk.enterFaulted (s : State) (code : FaultCode) (causes : BitVec 6) : State.RestOk { s with
    intcause := causes, device := .faulted, faultCode := code, loadAddr := none, lines := vmap Line.deviceFaulted s.lines
    crings := vmap (Option.map CRing.deviceFaulted) s.crings, admin := s.admin.deviceFaulted } := by
  refine fun _ => ⟨fun l => ?_, fun r c hc => ?_, fun e => absurd rfl e⟩
  · change (vget (vmap Line.deviceFaulted s.lines) l).Rests
    rw [vget_vmap]
    exact Line.deviceFaulted_rests _
  · obtain ⟨d, hd, rfl⟩ := Option.map_eq_some_iff.mp ((vget_vmap _ s.crings r).symm.trans hc)
    exact ⟨rfl, rfl⟩

/-- From any state the entry to FAULTED, its writes cut off and its stations told, keeps the laws. -/
theorem State.Keeps.enterFaulted (s : State) (code : FaultCode) (causes : BitVec 6) : s.Keeps { s with
    intcause := causes, device := .faulted, faultCode := code, loadAddr := none, lines := vmap Line.deviceFaulted s.lines
    crings := vmap (Option.map CRing.deviceFaulted) s.crings, admin := s.admin.deviceFaulted } where
  mem := id
  keys := id
  queues := .congr (fun l => by
    change (vget (vmap Line.deviceFaulted s.lines) l).noticeQueue = _
    rw [vget_vmap]
    rfl) fun _ => rfl
  rings h := ⟨h.1, fun r c hc => by
    obtain ⟨d, hd, rfl⟩ := Option.map_eq_some_iff.mp ((vget_vmap _ s.crings r).symm.trans hc)
    exact h.2.1 r d hd, h.2.2⟩
  rest _ := .enterFaulted s code causes
  inFlight _ _ := .of_not_working rfl

/-- A device fault keeps the laws, and leaves the part at rest (R176). -/
theorem State.Keeps.deviceFault (s : State) (code : FaultCode) : s.Keeps (s.deviceFault code) := by
  rw [State.deviceFault_eq]
  have hu : s.Keeps s.cutWrites := (State.CutWork.cutWrites s).keeps
  have hwork := s.faultBase_work
  have hfault := State.Keeps.enterFaulted s.faultBase code (s.faultBase.intcause ||| causeMask faultBit)
  exact
    { mem := fun h => hfault.mem (hwork.memOk (hu.mem h))
      keys := fun h => hfault.keys (hwork.keys.keysOk (hu.keys h))
      queues := fun h => hfault.queues (hwork.queues (hu.queues h))
      rings := fun h => hfault.rings (hwork.ringsOk (hu.rings h))
      rest := fun _ => .enterFaulted s.faultBase code _
      inFlight := fun _ _ => .of_not_working rfl }

/-! ## OFF, LOADING and the resets (R171, R173, R178) -/

theorem Line.reset_rests (v : Level) : (Line.reset v).Rests :=
  ⟨rfl, rfl, rfl, rfl, rfl, by simp [Line.allFree, Line.reset, Line.slot], rfl, rfl, rfl, rfl⟩

/-- A part at reset values that shows no work in hand keeps every law but that of host memory, which it takes over. -/
theorem State.Keeps.ofReset {s t : State} (hm : s.MemOk → t.MemOk) (hw : t.working = false) (hl : ∀ l, ∃ v, t.line l = Line.reset v)
    (hr : ∀ r, t.ring r = none) (hc : ∀ r, t.cring r = none) (hp : t.pool = none) (he : ∀ e, t.station e = none)
    (ha : t.admin = .reset) : s.Keeps t where
  mem := hm
  keys _ := ⟨fun e x hx => by simp [he] at hx, fun e f x hx => by simp [he] at hx⟩
  queues _ l := by
    obtain ⟨v, hv⟩ := hl l
    simp [hv, he, Line.reset]
  rings _ := ⟨fun r x hx => by simp [hr] at hx, fun r x hx => by simp [hc] at hx, fun x hx => by simp [hp] at hx⟩
  rest _ _ := ⟨fun l => by
    obtain ⟨v, hv⟩ := hl l
    rw [hv]
    exact Line.reset_rests v, fun r x hx => by simp [hc] at hx, fun _ => ⟨hr, hc, hp, he, ha⟩⟩
  inFlight _ _ := .of_not_working hw

theorem State.Keeps.reachOff (s : State) (cause : ResetCause) : s.Keeps (s.reachOff cause) :=
  .ofReset id rfl (fun l => ⟨_, s.reachOff_line cause l⟩) (s.reachOff_ring cause) (s.reachOff_cring cause) rfl
    (s.reachOff_station cause) rfl

/-- The reset values of every block, with what no reset reaches (R178). -/
theorem State.resetAll_eq (s : State) (cause : ResetCause) : s.resetAll cause = { State.reset with
    resetCause := cause, lines := vmap (fun x => Line.reset x.pins.rxd) s.cutWrites.lines, hostMem := s.cutWrites.hostMem
    choices := s.cutWrites.choices, pending := s.cutWrites.pending } := rfl

theorem State.Keeps.resetAll (s : State) (cause : ResetCause) : s.Keeps (s.resetAll cause) := by
  have hcut : s.Keeps s.cutWrites := (State.CutWork.cutWrites s).keeps
  rw [State.resetAll_eq]
  generalize s.cutWrites = u at *
  exact hcut.trans (.ofReset id rfl (fun l => ⟨_, vget_vmap _ u.lines l⟩) (fun r => vget_replicate _ _) (fun r => vget_replicate _ _)
    rfl (fun e => vget_replicate _ _) rfl)

theorem State.Keeps.beginLoad {s : State} (h : s.device = .off) : s.Keeps s.beginLoad := by
  have hload : s.Keeps { s with device := .loading, faultCode := .none, loadAddr := some s.bootAddr } :=
    { State.Keeps.refl s with
      rest := fun hr _ => by
        obtain ⟨hl, hc, hctx⟩ := hr (by simp [State.working, h])
        exact ⟨hl, hc, fun _ => hctx (by simp [h])⟩
      inFlight := fun _ _ => .of_not_working rfl }
  unfold State.beginLoad
  extract_lets t
  split
  · exact hload
  · exact hload.trans (.deviceFault t _)

theorem ringGeometryOk_code {base : Addr} {width lo hi : Nat} {c : Byte} (h : ringGeometryOk base width lo hi c = true) :
    lo ≤ c.toNat ∧ c.toNat ≤ hi := by
  simp only [ringGeometryOk, Bool.and_eq_true, decide_eq_true_eq] at h
  exact h.1.2

theorem newRing_ok {base : Addr} {c : Nat} (h : 2 ≤ c ∧ c ≤ 12) (l : Option LineId) (k : Option ClassId) (q : CRingId) :
    (newRing base c l k q).Ok :=
  ⟨h.1, h.2, ringSize_pos c, ringSize_pos c⟩

theorem newCRing_ok {base : Addr} {c n : Nat} (h : 3 ≤ c ∧ c ≤ 13) (hn : 1 ≤ n ∧ n ≤ 255) (t : Nat) (ie : Bool) :
    (newCRing base c n t ie).Ok :=
  ⟨h.1, h.2, ringSize_pos c, (Nat.zero_mod _).symm, hn.1, hn.2, Nat.zero_le _⟩

theorem Line.Rests.slot_none {x : Line} (h : x.Rests) (i : SlotId) : x.slot i = none := by
  obtain ⟨-, -, -, -, -, hf, -⟩ := h
  simpa [Line.allFree] using List.all_eq_true.mp hf i (List.mem_finRange i)

theorem Line.Rests.read_none {x : Line} (h : x.Rests) : x.read = none := by
  obtain ⟨-, -, -, -, -, -, hr, -⟩ := h
  exact hr

/-- A load that succeeds has ring 0 and C0 at their creation values, and no record anywhere (R173). -/
theorem State.Keeps.loadSucceeds {s : State} (hd : s.device = .loading) {r : BootRec} (h : r.valid = true) :
    s.Keeps (s.loadSucceeds r) := by
  simp only [BootRec.valid, Bool.and_eq_true, decide_eq_true_eq] at h
  obtain ⟨⟨⟨-, h0⟩, hC⟩, ht⟩ := h
  have hring : ∀ q, (s.loadSucceeds r).ring q = if q = 0 then
      some (newRing r.ring0Base r.ring0Size.toNat none none 0) else s.ring q := fun q => vget_vput _ _ _ _
  have hcring : ∀ q, (s.loadSucceeds r).cring q = if q = 0 then
      some (newCRing r.c0Base r.c0Size.toNat r.threshold.toNat r.time.toNat r.intEnable) else s.cring q := fun q => vget_vput _ _ _ _
  exact
    { mem := id, keys := id, queues := id
      rings := fun hs => ⟨fun q x hx => by
          rw [hring] at hx
          split at hx
          · obtain rfl := Option.some.inj hx
            exact newRing_ok (ringGeometryOk_code h0) _ _ _
          · exact hs.1 q x hx, fun q x hx => by
          rw [hcring] at hx
          split at hx
          · obtain rfl := Option.some.inj hx
            exact newCRing_ok (ringGeometryOk_code hC) ⟨ht, by have := r.threshold.isLt; omega⟩ _ _
          · exact hs.2.1 q x hx, hs.2.2⟩
      rest := fun _ => .of_working rfl
      inFlight := fun hrest _ _ => by
        obtain ⟨hl, -, hctx⟩ := hrest (by simp [State.working, hd])
        obtain ⟨hr, -⟩ := hctx (by simp [hd])
        have hline : ∀ q, ∀ x ∈ (s.loadSucceeds r).ring q, x.line = none := by
          intro q x hx
          rw [hring, hr] at hx
          split at hx
          · obtain rfl := Option.some.inj hx
            rfl
          · cases hx
        refine ⟨hline 0, fun l i y hy => ?_, fun l rd hrd => ?_, fun q x hx l e => ?_⟩
        · exact absurd ((hl l).slot_none i) (by rw [show (s.line l).slot i = some y from hy]; nofun)
        · exact absurd (hl l).read_none (by rw [show (s.line l).read = some rd from hrd]; nofun)
        · rw [hline q x hx] at e; cases e }

/-! ## Records taken and written (R39, R42, R60, R129) -/

theorem length_filter_finRange {n : Nat} (p : Fin n → Bool) :
    ((List.finRange n).filter p).length = (Finset.univ.filter fun i => p i = true).card := by
  rw [← List.toFinset_card_of_nodup ((List.nodup_finRange n).filter _)]
  congr 1
  ext i
  simp

theorem Line.slotsOf_setSlot {x : Line} {i : SlotId} (h : x.slot i = none) (y : Slot) (r : RingId) :
    (x.setSlot i (some y)).slotsOf r = x.slotsOf r + if y.ring = r then 1 else 0 := by
  simp only [Line.slotsOf, length_filter_finRange, Line.holdsOf_eq]
  split
  · next e =>
    rw [← Finset.card_insert_of_notMem (a := i) (by simp [h])]
    congr 1
    ext j
    by_cases k : j = i
    · subst k; simp [e]
    · simp [k]
  · next e =>
    rw [Nat.add_zero]
    congr 1
    ext j
    by_cases k : j = i
    · subst k; simp [e, h]
    · simp [k]

theorem Line.slotsOf_freeSlot {x : Line} {i : SlotId} {y : Slot} (h : x.slot i = some y) (r : RingId) :
    x.slotsOf r = (x.setSlot i none).slotsOf r + if y.ring = r then 1 else 0 := by
  have hback : (x.setSlot i none).setSlot i (some y) = x := by
    have : vput (vput x.slots i none) i (some y) = x.slots := vget_ext fun j => by
      rw [vget_vput]
      split
      · next e => subst e; exact h.symm
      · next e => exact vget_vput_ne _ _ e
    exact congrArg (fun v => { x with slots := v }) this
  have hof := Line.slotsOf_setSlot (x := x.setSlot i none) (i := i) (Line.slot_setSlot_same _ _ _) y r
  rwa [hback] at hof

/-- The Intake's record goes into a FREE slot: the ring has one record more in flight, and the line one slot more that holds one (R42). -/
theorem State.Keeps.takeSlot {s : State} (hw : s.working = true) {l : LineId} {rd : IntakeRead} (hrd : (s.line l).read = some rd)
    {i : SlotId} (hi : s.slot l i = none) {y : Slot} (hy : y.ring = rd.ring) (age : Nat) :
    s.Keeps ((s.modRing rd.ring fun x =>
        { x with head := nextIndex (ringSize x.sizeCode) x.head, inFlight := x.inFlight + 1 }).modLine l fun x =>
      { x.setSlot i (some y) with read := none, nextAge := age }) := by
  set t := (s.modRing rd.ring fun x =>
        { x with head := nextIndex (ringSize x.sizeCode) x.head, inFlight := x.inFlight + 1 }).modLine l fun x =>
      { x.setSlot i (some y) with read := none, nextAge := age } with ht
  have hring : ∀ q, q ≠ rd.ring → t.ring q = s.ring q := fun q e => by
    rw [ht, State.modLine_ring_frame, State.ring_modRing_ne _ _ e]
  have hringOf : t.ring rd.ring = (s.ring rd.ring).map fun x =>
      { x with head := nextIndex (ringSize x.sizeCode) x.head, inFlight := x.inFlight + 1 } := by
    rw [ht, State.modLine_ring_frame, State.ring_modRing_same]
  have hline : t.line l = { (s.line l).setSlot i (some y) with read := none, nextAge := age } := State.line_modLine_same _ _ _
  have hlineNe : ∀ k, k ≠ l → t.line k = s.line k := fun k e => State.line_modLine_ne _ _ e
  have hqueue : ∀ k, (t.line k).noticeQueue = (s.line k).noticeQueue := fun k => by
    by_cases ek : k = l
    · subst ek; rw [hline]; rfl
    · rw [hlineNe k ek]
  have hringBack : ∀ q, ∀ x' ∈ t.ring q, ∃ x ∈ s.ring q, x'.line = x.line
      ∧ x'.inFlight = x.inFlight + (if q = rd.ring then 1 else 0) ∧ (x.Ok → x'.Ok) := by
    intro q x' hx'
    by_cases e : q = rd.ring
    · rw [e, hringOf] at hx'
      obtain ⟨x, hx, rfl⟩ := Option.map_eq_some_iff.mp hx'
      exact ⟨x, e ▸ hx, rfl, by simp [e], fun ⟨h1, h2, _, h4⟩ => ⟨h1, h2, nextIndex_lt _ _, h4⟩⟩
    · rw [hring q e] at hx'
      exact ⟨x', hx', rfl, by simp [e], id⟩
  have hringFwd : ∀ q, ∀ x ∈ s.ring q, ∃ x' ∈ t.ring q, x'.line = x.line ∧ (q ≠ rd.ring → x'.inFlight = x.inFlight) := by
    intro q x hx
    by_cases e : q = rd.ring
    · subst e
      rw [hringOf, Option.mem_def.mp hx]
      exact ⟨_, rfl, rfl, fun h => absurd rfl h⟩
    · exact ⟨x, by rwa [hring q e], rfl, fun _ => rfl⟩
  exact
    { mem := id, keys := id
      queues := .congr hqueue fun _ => rfl
      rings := fun h => ⟨fun q x' hx' => by
        obtain ⟨x, hx, -, -, hok⟩ := hringBack q x' hx'
        exact hok (h.1 q x hx), h.2⟩
      rest := fun _ => .of_working hw
      inFlight := fun _ h _ => by
        obtain ⟨h0, hslots, hreads, hcounts⟩ := h hw
        obtain ⟨x0, hx0, hx0l, hx0lt⟩ := hreads l rd hrd
        refine ⟨fun x' hx' => ?_, fun k j b hb => ?_, fun k q hq => ?_, fun q x' hx' k hk => ?_⟩
        · obtain ⟨x, hx, e, -⟩ := hringBack 0 x' hx'
          exact e.trans (h0 x hx)
        · have : ∃ x ∈ s.ring b.ring, x.line = some k := by
            by_cases ek : k = l
            · subst ek
              rw [State.slot, hline] at hb
              by_cases ej : j = i
              · subst ej
                obtain rfl : y = b := by simpa using show ((s.line k).setSlot j (some y)).slot j = some b from hb
                exact ⟨x0, hy ▸ hx0, hx0l⟩
              · exact hslots k j b ((Line.slot_setSlot_ne _ _ ej).symm.trans hb)
            · rw [State.slot, hlineNe k ek] at hb
              exact hslots k j b hb
          obtain ⟨x, hx, hxl⟩ := this
          obtain ⟨x', hx', e, -⟩ := hringFwd b.ring x hx
          exact ⟨x', hx', e.trans hxl⟩
        · have ek : k ≠ l := by
            rintro rfl
            rw [hline] at hq
            cases hq
          rw [hlineNe k ek] at hq
          obtain ⟨x, hx, hxl, hlt⟩ := hreads k q hq
          have hne : q.ring ≠ rd.ring := fun e => ek (by
            rw [e, Option.mem_def.mp hx0] at hx
            obtain rfl := Option.some.inj hx
            exact Option.some.inj (hxl.symm.trans hx0l))
          obtain ⟨x', hx', e, e2⟩ := hringFwd q.ring x hx
          exact ⟨x', hx', e.trans hxl, (e2 hne).symm ▸ hlt⟩
        · obtain ⟨x, hx, e1, e2, -⟩ := hringBack q x' hx'
          obtain ⟨hc, hle⟩ := hcounts q x hx k (e1 ▸ hk)
          by_cases ek : k = l
          · subst ek
            have hof : (t.line k).slotsOf q = (s.line k).slotsOf q + if y.ring = q then 1 else 0 := by
              rw [hline]
              exact Line.slotsOf_setSlot hi y q
            rw [hof, e2, hy]
            by_cases eq : q = rd.ring
            · subst eq
              obtain rfl : x0 = x := Option.mem_unique hx0 hx
              simp only [if_true]
              omega
            · rw [if_neg eq, if_neg (Ne.symm eq)]
              omega
          · have eq : q ≠ rd.ring := by
              rintro rfl
              obtain rfl : x0 = x := Option.mem_unique hx0 hx
              exact ek (Option.some.inj ((e1 ▸ hk).symm.trans hx0l))
            rw [hlineNe k ek, e2, if_neg eq]
            omega }

/-- A slot's completion is written: the slot is FREE, and its ring has one record less in flight (R60). -/
theorem State.Keeps.slotWritten {s : State} (hw : s.working = true) (l : LineId) (i : SlotId) : s.Keeps (s.slotWritten l i) := by
  unfold State.slotWritten
  split
  · next y hy =>
    set t := (s.modRing y.ring fun q => { q with inFlight := q.inFlight - 1, fenced := q.fenced && !y.fenceHeld }).modLine l
      fun x => { x.setSlot i none with txnWriter := none } with ht
    have hline : t.line l = { (s.line l).setSlot i none with txnWriter := none } := State.line_modLine_same _ _ _
    have hlineNe : ∀ k, k ≠ l → t.line k = s.line k := fun k e => State.line_modLine_ne _ _ e
    have hqueue : ∀ k, (t.line k).noticeQueue = (s.line k).noticeQueue := fun k => by
      by_cases ek : k = l
      · subst ek; rw [hline]; rfl
      · rw [hlineNe k ek]
    have hringBack : ∀ q, ∀ x' ∈ t.ring q, ∃ x ∈ s.ring q, x'.line = x.line
        ∧ x'.inFlight = x.inFlight - (if q = y.ring then 1 else 0) ∧ (x.Ok → x'.Ok) := by
      intro q x' hx'
      rw [ht, State.modLine_ring_frame] at hx'
      by_cases e : q = y.ring
      · rw [e, State.ring_modRing_same] at hx'
        obtain ⟨x, hx, rfl⟩ := Option.map_eq_some_iff.mp hx'
        exact ⟨x, e ▸ hx, rfl, by simp [e], id⟩
      · rw [State.ring_modRing_ne _ _ e] at hx'
        exact ⟨x', hx', rfl, by simp [e], id⟩
    have hringFwd : ∀ q, ∀ x ∈ s.ring q, ∃ x' ∈ t.ring q, x'.line = x.line ∧ x'.inFlight ≤ x.inFlight := by
      intro q x hx
      rw [ht, State.modLine_ring_frame]
      by_cases e : q = y.ring
      · subst e
        rw [State.ring_modRing_same, Option.mem_def.mp hx]
        exact ⟨_, rfl, rfl, Nat.sub_le _ _⟩
      · exact ⟨x, by rwa [State.ring_modRing_ne _ _ e], rfl, le_refl _⟩
    have hslotBack : ∀ k j, ∀ b ∈ t.slot k j, b ∈ s.slot k j := by
      intro k j b hb
      by_cases ek : k = l
      · subst ek
        rw [State.slot, hline] at hb
        by_cases ej : j = i
        · subst ej
          exact absurd (show ((s.line k).setSlot j none).slot j = some b from hb) (by simp)
        · exact (Line.slot_setSlot_ne _ _ ej).symm.trans hb
      · rw [State.slot, hlineNe k ek] at hb
        exact hb
    have hread : ∀ k, (t.line k).read = (s.line k).read := fun k => by
      by_cases ek : k = l
      · subst ek; rw [hline]; rfl
      · rw [hlineNe k ek]
    exact
      { mem := id, keys := id
        queues := .congr hqueue fun _ => rfl
        rings := fun h => ⟨fun q x' hx' => by
          obtain ⟨x, hx, -, -, hok⟩ := hringBack q x' hx'
          exact hok (h.1 q x hx), h.2⟩
        rest := fun _ => .of_working hw
        inFlight := fun _ h _ => by
          obtain ⟨h0, hslots, hreads, hcounts⟩ := h hw
          obtain ⟨x0, hx0, hx0l⟩ := hslots l i y hy
          refine ⟨fun x' hx' => ?_, fun k j b hb => ?_, fun k q hq => ?_, fun q x' hx' k hk => ?_⟩
          · obtain ⟨x, hx, e, -⟩ := hringBack 0 x' hx'
            exact e.trans (h0 x hx)
          · obtain ⟨x, hx, hxl⟩ := hslots k j b (hslotBack k j b hb)
            obtain ⟨x', hx', e, -⟩ := hringFwd b.ring x hx
            exact ⟨x', hx', e.trans hxl⟩
          · rw [hread k] at hq
            obtain ⟨x, hx, hxl, hlt⟩ := hreads k q hq
            obtain ⟨x', hx', e, e2⟩ := hringFwd q.ring x hx
            exact ⟨x', hx', e.trans hxl, lt_of_le_of_lt e2 hlt⟩
          · obtain ⟨x, hx, e1, e2, -⟩ := hringBack q x' hx'
            obtain ⟨hc, hle⟩ := hcounts q x hx k (e1 ▸ hk)
            by_cases ek : k = l
            · subst ek
              have hof : (s.line k).slotsOf q = (t.line k).slotsOf q + if y.ring = q then 1 else 0 := by
                rw [hline]
                exact Line.slotsOf_freeSlot hy q
              rw [e2]
              by_cases eq : q = y.ring
              · subst eq
                simp only [if_true] at hof ⊢
                omega
              · rw [if_neg (Ne.symm eq)] at hof
                rw [if_neg eq]
                omega
            · have eq : q ≠ y.ring := by
                rintro rfl
                obtain rfl : x0 = x := Option.mem_unique hx0 hx
                exact ek (Option.some.inj ((e1 ▸ hk).symm.trans hx0l))
              rw [hlineNe k ek, e2, if_neg eq]
              omega }
  · next hy =>
    refine (State.LineWork.modLine ⟨fun j => ?_, rfl⟩ rfl).keeps hw
    by_cases e : j = i
    · subst e
      rw [show (s.line l).slot j = none from hy]
      exact congrArg _ (Line.slot_setSlot_same _ _ _)
    · exact congrArg _ (Line.slot_setSlot_ne _ _ e)

end Sys2Proof.Machine

/-! # What a step is made of, and the laws it keeps

A step is the effect of the command at the front of the queue and then, but for the resets, the units' own acts. Each effect and each act
keeps the laws of host memory, keys, notice queues, ring indices, rest and in-flight counts. -/

namespace Sys2Proof.Machine

/-! ## The effect of a command or event -/

/-- What a command or event does before the units act. -/
def State.effect (s : State) : Instr → State
  | .powerOnReset => s.resetAll .power
  | .hardReset => s.resetAll .hard
  | .enable v => s.writeEnable v
  | .intEnable v => s.writeIntEnable v
  | .post ring tail => s.writePost ring tail
  | .release ring head => s.writeRelease ring head
  | .intcause v => s.writeIntcause v
  | .registerWrite reg v => s.writeReg reg v
  | .bootstrapRead r => s.bootReadEnds r
  | .recordRead l r => s.recordReadEnds l r
  | .ringCreate tag ring sizeCode line cls cring base => s.takeCommand tag (.ringCreate ring sizeCode line cls cring base)
  | .ringPause tag ring => s.takeCommand tag (.ringPause ring)
  | .ringResume tag ring cls => s.takeCommand tag (.ringResume ring cls)
  | .ringDelete tag ring mode => s.takeCommand tag (.ringDelete ring mode)
  | .cringCreate tag ring sizeCode n ie t base => s.takeCommand tag (.cringCreate ring sizeCode n ie t base)
  | .cringPolicy tag ring n ie t => s.takeCommand tag (.cringPolicy ring n ie t)
  | .cringDelete tag ring => s.takeCommand tag (.cringDelete ring)
  | .poolCreate tag sizeCode base => s.takeCommand tag (.poolCreate sizeCode base)
  | .poolDelete tag => s.takeCommand tag .poolDelete
  | .lineConfig tag line fields => s.takeCommand tag (.lineConfig line fields)
  | .lineStart tag line => s.takeCommand tag (.lineStart line)
  | .lineStop tag line mode => s.takeCommand tag (.lineStop line mode)
  | .stationAttach tag line addr period => s.takeCommand tag (.stationAttach line addr period)
  | .stationDetach tag line addr => s.takeCommand tag (.stationDetach line addr)
  | .stationScan tag line addr period => s.takeCommand tag (.stationScan line addr period)
  | .stationQuery tag index clear buf => s.takeCommand tag (.stationQuery index clear buf)
  | .lineQuery tag line part clear buf => s.takeCommand tag (.lineQuery line part clear buf)
  | .payloadRead l i r => s.payloadReadEnds l i r
  | .dataWrite l i w => s.dataWriteEnds l i w
  | .poolEntryRead l r => s.poolReadEnds l r
  | .scanDataWrite l w => s.scanWriteEnds l w
  | .reportWrite w => s.reportWriteEnds w
  | .completionWrite r w => s.completionEnds r w
  | .leadTime l => s.leadEnds l
  | .characterSent l => s.characterEnds l
  | .characterReceived l c => s.characterArrives l c
  | .rxdTransition l level => s.rxdTakes l level
  | .responseTimeout l => s.responseExpires l
  | .gapLimit l => s.gapExpires l
  | .settleTime l => s.settleExpires l
  | .settleLimit l => s.settleLimitExpires l
  | .startQuiet l => s.startQuietExpires l
  | .startLimit l => s.startLimitExpires l
  | .stuckLimit l => s.stuckExpires l
  | .clockedStartWait l => s.clockedWaitEnds l
  | .holdOffEnd e => s.holdOffExpires e
  | .nextDue e => s.dueReached e
  | .coalescingTimer r => s.coalescingExpires r
  | .falseStart l => s.falseStartTaken l
  | .adminRecordRead r => s.adminReadEnds r

/-- A command or event leads to its effect and the units' acts after it, a reset to its effect alone. -/
theorem exec_eq (i : Instr) (s : State) : exec i s = .next (s.effect i) ∨ exec i s = .next (s.effect i).react := by
  cases i
  case powerOnReset => exact .inl rfl
  case hardReset => exact .inl rfl
  all_goals exact .inr rfl

/-- What every effect, every enabled act and the passing of the queue and of time relate, a step relates. -/
theorem step_relates {R : State → State → Prop} (hrefl : ∀ s, R s s) (htrans : ∀ s t u, R s t → R t u → R s u)
    (hregs : ∀ s q n, R s { s with pending := q, choices := n }) (htick : ∀ s, R s s.tick)
    (heffect : ∀ (i : Instr) s, R s (s.effect i)) (hact : ∀ s a, s.enabled a = true → R s (s.perform a)) {s t : State}
    (h : step s = .next t) : R s t := by
  have hreact : ∀ u, R u u.react := State.react_relates hrefl htrans hact fun u n => hregs u u.pending n
  unfold step at h
  split at h
  · next i rest _ =>
    have hqueue : R s { s with pending := rest } := hregs s rest s.choices
    have heff := htrans _ _ _ hqueue (heffect i _)
    rcases exec_eq i { s with pending := rest } with e | e
    · obtain rfl : State.effect _ i = t := by rw [e] at h; injection h
      exact heff
    · obtain rfl : (State.effect _ i).react = t := by rw [e] at h; injection h
      exact htrans _ _ _ heff (hreact _)
  · obtain rfl : s.tick = t := by injection h
    exact htick s

/-! ## The host's commands (R125 to R127, R142, R172, R177) -/

theorem State.Keeps.decide {s t : State} (h : s.Keeps t) (hw : s.working = true) (st : Status) (v : Nat)
    (e : t.working = s.working) : s.Keeps (t.adminDecide st v) :=
  h.trans (.ofAdmin (e.trans hw) _)

theorem State.Keeps.wait {s t : State} (h : s.Keeps t) (hw : s.working = true) (w : AdminWait) (n : Nat)
    (e : t.working = s.working) : s.Keeps (t.adminWait w n) :=
  h.trans (.ofAdmin (e.trans hw) _)

theorem State.Keeps.adminDecide {s : State} (hw : s.working = true) (st : Status) (v : Nat) : s.Keeps (s.adminDecide st v) :=
  .ofAdmin hw _

theorem State.Keeps.endDisable (s : State) : s.Keeps s.endDisable := by
  unfold State.endDisable
  extract_lets t
  have ht : s.Keeps t := .reachOff s _
  split
  · exact ht.trans (.beginLoad rfl)
  · exact ht

theorem State.disableLines_work (s : State) : s.LineWork ((List.finRange 8).foldl State.disableLine s) :=
  .foldl State.LineWork.disableLine _ s

theorem State.abortAdmin_eq (s : State) : ∃ a, s.abortAdmin = { s with admin := a } := by
  unfold State.abortAdmin
  split
  · exact ⟨_, rfl⟩
  · exact ⟨s.admin, rfl⟩

theorem State.Keeps.abortAdmin {s : State} (hw : s.working = true) : s.Keeps s.abortAdmin := by
  obtain ⟨a, e⟩ := s.abortAdmin_eq
  rw [e]
  exact .ofAdmin hw a

theorem State.Keeps.ofDisabling {s : State} (hw : s.working = true) : s.Keeps { s with device := .disabling } :=
  { State.Keeps.refl s with
    rest := fun _ => .of_working rfl
    inFlight := fun _ h _ => h hw }

theorem State.Keeps.beginDisable {s : State} (hw : s.working = true) : s.Keeps s.beginDisable := by
  unfold State.beginDisable
  extract_lets t u
  have hu : t.LineWork u := t.disableLines_work
  have hwu : u.working = true := hu.working.trans rfl
  clear_value u
  have hdrop : u.Keeps u.dropNotices := .dropNotices hwu
  have hwd : u.dropNotices.working = true := hwu
  have habort : u.dropNotices.Keeps u.dropNotices.abortAdmin := .abortAdmin hwd
  exact (State.Keeps.ofDisabling hw).trans ((hu.keeps rfl).trans (hdrop.trans habort))

theorem State.Keeps.writeEnable (s : State) (v : Bool) : s.Keeps (s.writeEnable v) := by
  have hreg : ∀ b, s.Keeps { s with enable := b } := fun b => .ofRegs rfl
  unfold State.writeEnable
  split
  · next h =>
    dsimp only
    split
    · exact (hreg v).trans (.beginLoad h)
    · exact hreg v
  · dsimp only
    split
    · exact (hreg v).trans (.reachOff _ _)
    · exact hreg v
  · next h =>
    dsimp only
    split
    · exact (hreg v).trans (.beginDisable (by simp [State.working, h]))
    · exact hreg v
  · exact hreg v
  · split
    · exact .refl s
    · exact (hreg false).trans (.reachOff _ _)

theorem State.Keeps.rejectPost (s : State) (e : PostError) : s.Keeps (s.rejectPost e) := .ofRegs rfl

theorem State.namedRing_some {s : State} {r : RingId} {x : SubRing} (h : s.namedRing r = some x) :
    s.ring r = some x ∧ x.state ≠ .draining := by
  unfold State.namedRing at h
  split at h
  · next y hy =>
    split at h
    · cases h
    · next hd =>
      cases h
      exact ⟨hy, hd⟩
  · cases h

theorem State.LineWork.poolRefilled (s : State) : s.LineWork s.poolRefilled := by
  have hst : ∀ e, s.poolRefilled.station e = (s.station e).map fun x =>
      if x.redelivery then { x with nextDue := s.nowMs } else x := fun e => vget_vmap _ _ _
  exact
    { same := rfl, lines := fun _ => .refl _
      keys := fun e y hy => by
        rw [hst e] at hy
        obtain ⟨x, hx, rfl⟩ := Option.map_eq_some_iff.mp hy
        exact ⟨x, hx, by split <;> rfl, by split <;> rfl⟩
      queues := .congr (fun _ => rfl) fun e => by
        rw [hst e, Option.map_map]
        congr 1
        funext x
        simp only [Function.comp_apply]
        split <;> rfl
      crings := .of_eq rfl, pool := .inl rfl }

theorem State.Keeps.postRing {s : State} (hw : s.working = true) (r : RingId) (tail : Nat) : s.Keeps (s.postRing r tail) := by
  unfold State.postRing
  split
  · exact .rejectPost s _
  · next x hx =>
    split
    · next hlt => exact .setRing hw (State.namedRing_some hx).1 (fun ⟨h1, h2, h3, _⟩ => ⟨h1, h2, h3, hlt⟩) rfl
    · exact .rejectPost s _

theorem State.Keeps.postPool {s : State} (hw : s.working = true) (tail : Nat) : s.Keeps (s.postPool tail) := by
  unfold State.postPool
  split
  · exact .rejectPost s _
  · next p hp =>
    split
    · next hlt =>
      extract_lets t
      have ht : s.Keeps t := .setPool hw fun h z hz => by
        obtain rfl := Option.some.inj (Option.mem_def.mp hz)
        obtain ⟨h1, h2, h3, -⟩ := h p hp
        exact ⟨h1, h2, h3, hlt⟩
      split
      · exact ht.trans ((State.LineWork.poolRefilled t).keeps hw)
      · exact ht
    · exact .rejectPost s _

theorem State.Keeps.writePost (s : State) (ring : Byte) (tail : Half) : s.Keeps (s.writePost ring tail) := by
  unfold State.writePost
  split
  · exact .rejectPost s _
  · next h =>
    have hw : s.working = true := by simp_all [State.working]
    split
    · exact .postPool hw _
    · split
      · exact .postRing hw _ _
      · exact .rejectPost s _

/-- The places given back by a RELEASE leave the tail at the head plus written-unreleased (R137, R142). -/
theorem CRing.Ok.released {c : CRing} (h : c.Ok) {head : Nat} (hlt : head < ringSize c.sizeCode)
    (hle : indexDistance (ringSize c.sizeCode) c.head head ≤ c.written) :
    CRing.Ok { c with head := head, written := c.written - indexDistance (ringSize c.sizeCode) c.head head } := by
  obtain ⟨h1, h2, h3, h4, h5, h6, h7⟩ := h
  refine ⟨h1, h2, hlt, h4.trans ?_, h5, h6, h7⟩
  show _ = (head + (c.written - _)) % ringSize c.sizeCode
  unfold indexDistance at hle ⊢
  generalize ringSize c.sizeCode = n at *
  by_cases hh : c.head ≤ head
  · have e : (head + n - c.head) % n = head - c.head := by
      rw [show head + n - c.head = head - c.head + n by omega, Nat.add_mod_right, Nat.mod_eq_of_lt (by omega)]
    rw [e] at hle ⊢
    congr 1
    omega
  · have e : (head + n - c.head) % n = head + n - c.head := Nat.mod_eq_of_lt (by omega)
    rw [e] at hle ⊢
    rw [show head + (c.written - (head + n - c.head)) = c.head + c.written - n by omega, ← Nat.mod_eq_sub_mod (by omega)]

theorem State.Keeps.writeRelease (s : State) (ring : Byte) (head : Half) : s.Keeps (s.writeRelease ring head) := by
  unfold State.writeRelease
  split
  · exact .rejectPost s _
  · next h =>
    have hw : s.working = true := by simp_all [State.working]
    split
    · exact .rejectPost s _
    · split
      · exact .rejectPost s _
      · next r _ _ c hc =>
        extract_lets k t
        split
        · next hok =>
          have ht : s.Keeps t := .setCRing hw fun h z hz => by
            obtain rfl := Option.some.inj (Option.mem_def.mp hz)
            exact (h c hc).released hok.1 hok.2
          split
          · exact ht.trans ((State.SideWork.gainPlace t r).work.keeps hw)
          · exact ht
        · exact .rejectPost s _

theorem State.Keeps.writeReg (s : State) (reg : Reg) (v : Word) : s.Keeps (s.writeReg reg v) := by
  cases reg with
  | devid => exact .refl s
  | devctl =>
    change s.Keeps (s.writeDevctl v)
    unfold State.writeDevctl
    split
    · exact .resetAll s _
    · exact .trans (t := s.writeIntEnable (v.getLsbD 1)) (.ofRegs rfl) (.writeEnable _ _)
  | devstat => exact .refl s
  | bootLo => exact .ofRegs rfl
  | bootHi => exact .ofRegs rfl
  | post => exact .writePost s _ _
  | release => exact .writeRelease s _ _
  | intcause => exact .ofRegs rfl

/-! ## Reads and writes of host memory (chapters 3, 5, 6, 8, 10) -/

theorem State.Keeps.bootReadEnds (s : State) (r : BusRead) : s.Keeps (s.bootReadEnds r) := by
  unfold State.bootReadEnds
  split
  · next hd =>
    split
    · exact .deviceFault s _
    · split
      · next hv => exact .loadSucceeds hd hv
      · exact .deviceFault s _
  · exact .refl s

theorem State.Keeps.placeRecord {s : State} (hw : s.working = true) (l : LineId) (i : SlotId) (ring : RingId) (r : SubRec) :
    s.Keeps (s.placeRecord l i ring r) := by
  unfold State.placeRecord
  extract_lets t
  have ht : s.Keeps t ∧ t.working = true := by
    unfold t
    split
    · have hm : s.Keeps (s.modRing ring fun x => { x with fenced := true }) := .modRing hw (fun _ => id) fun _ => rfl
      have hs : (s.modRing ring fun x => { x with fenced := true }).Keeps
          ((s.modRing ring fun x => { x with fenced := true }).modSlot l i fun y => { y with fenceHeld := true }) := by
        refine (State.LineWork.modLine ⟨fun j => ?_, rfl⟩ rfl).keeps hw
        by_cases e : j = i
        · subst e
          rw [Line.slot_modSlot_same, Option.map_map]
          rfl
        · rw [Line.slot_modSlot_ne _ _ e]
      exact ⟨hm.trans hs, hw⟩
    · exact ⟨.refl s, hw⟩
  obtain ⟨ht, hwt⟩ := ht
  split
  · exact ht.trans ((State.TableWork.beginLoading t l i).work.keeps hwt)
  · split
    · refine ht.trans (State.LineWork.keeps (State.TableWork.work ?_) hwt)
      exact .modSlot fun a _ => Slot.Moved.to (x := a) (st := .waiting) nofun
    · exact ht.trans ((State.TableWork.enterReady t l i).work.keeps hwt)

theorem Line.freeSlot_none {x : Line} {i : SlotId} (h : x.freeSlot = some i) : x.slot i = none := by
  have := List.find?_some h
  simpa using this

theorem State.Keeps.recordReadEnds (s : State) (l : LineId) (r : BusRead) : s.Keeps (s.recordReadEnds l r) := by
  unfold State.recordReadEnds
  split
  · next hw =>
    split
    · exact .refl s
    · next rd hrd =>
      split
      · exact .deviceFault s _
      · split
        · exact .refl s
        · next bs i hi =>
          unfold State.takeInto
          extract_lets age t u rec
          have hu : s.Keeps u := .takeSlot hw hrd (Line.freeSlot_none hi) rfl _
          have hwu : u.working = true := hw
          split
          · exact hu.trans ((State.TableWork.modSlot fun a _ => .finishPlain a _).work.keeps hwu)
          · exact hu.trans (.placeRecord hwu l i _ _)
  · exact .refl s

theorem State.slotIs_working {s : State} {l : LineId} {i : SlotId} {st : SlotState} (h : s.slotIs l i st = true) :
    s.working = true := by
  simp only [State.slotIs, Bool.and_eq_true] at h
  exact h.1

theorem State.Keeps.payloadReadEnds (s : State) (l : LineId) (i : SlotId) (r : BusRead) : s.Keeps (s.payloadReadEnds l i r) := by
  by_cases h : s.slotIs l i .loading = true
  · exact (State.TableWork.payloadReadEnds s l i r).work.keeps (State.slotIs_working h)
  · rw [show s.payloadReadEnds l i r = s from if_neg h]
    exact .refl s

theorem State.Keeps.dataWriteEnds (s : State) (l : LineId) (i : SlotId) (w : BusWrite) : s.Keeps (s.dataWriteEnds l i w) := by
  unfold State.dataWriteEnds
  split
  · next h =>
    have hw := State.slotIs_working h
    split
    · exact .refl s
    · dsimp only
      split
      · exact .trans (.hostWrite s _ _) ((State.TableWork.modSlot fun a _ => .finish a _ _ _ _).work.keeps hw)
      · exact .trans (.hostWriteMasked s _ _ _) ((State.TableWork.modSlot fun a _ => .finish a _ _ _ _).work.keeps hw)
  · exact .refl s

theorem State.deliveryOf_some {s : State} {l : LineId} {d : Delivery} (h : s.deliveryOf l = some d) :
    s.working = true ∧ (s.line l).scanner.state = .delivering ∧ (s.line l).scanner.delivery = some d := by
  unfold State.deliveryOf at h
  split at h
  · next hw =>
    simp only [Bool.and_eq_true, beq_iff_eq] at hw
    exact ⟨hw.1, hw.2, h⟩
  · cases h

theorem State.Keeps.poolReadEnds (s : State) (l : LineId) (r : BusRead) : s.Keeps (s.poolReadEnds l r) := by
  unfold State.poolReadEnds
  split
  · exact .refl s
  · next d hd =>
    split
    · exact .refl s
    · split
      · exact (State.SideWork.deliveryAddressed s l d _).work.keeps (State.deliveryOf_some hd).1
      · exact .deviceFault s _

theorem State.Keeps.scanWriteEnds (s : State) (l : LineId) (w : BusWrite) : s.Keeps (s.scanWriteEnds l w) := by
  unfold State.scanWriteEnds
  split
  · exact .refl s
  · next d hd =>
    have hw := (State.deliveryOf_some hd).1
    split
    · split
      · exact .trans (.hostWrite s _ _) ((State.SideWork.deliveryDecided _ l d _).work.keeps hw)
      · exact .trans (.hostWriteMasked s _ _ _) ((State.SideWork.deliveryDecided _ l d _).work.keeps hw)
    · exact .refl s

theorem State.Keeps.reportWriteEnds (s : State) (w : BusWrite) : s.Keeps (s.reportWriteEnds w) := by
  unfold State.reportWriteEnds
  split
  · next hw =>
    split
    · dsimp only
      split
      · exact .decide (.hostWrite s _ _) hw _ _ rfl
      · exact .decide (.hostWriteMasked s _ _ _) hw _ _ rfl
    · exact .refl s
  · exact .refl s

/-- Ring 0 is bound to no line, so that its in-flight count is no line's (R133). -/
theorem State.Keeps.modRing0 {s : State} (hw : s.working = true) {f : SubRing → SubRing} (hok : ∀ x : SubRing, x.Ok → (f x).Ok)
    (hl : ∀ x, (f x).line = x.line) : s.Keeps (s.modRing 0 f) where
  mem := id
  keys := id
  queues := id
  rings h := ⟨fun q x hx => by
    by_cases e : q = 0
    · rw [e, State.ring_modRing_same] at hx
      obtain ⟨y, hy, rfl⟩ := Option.map_eq_some_iff.mp hx
      exact hok y (h.1 0 y hy)
    · rw [State.ring_modRing_ne _ _ e] at hx
      exact h.1 q x hx, h.2⟩
  rest _ := .of_working hw
  inFlight _ h _ := by
    obtain ⟨h0, hslots, hreads, hcounts⟩ := h hw
    have hbound : ∀ q, ∀ x ∈ s.ring q, x.line ≠ none → (s.modRing 0 f).ring q = s.ring q := by
      intro q x hx hne
      refine State.ring_modRing_ne _ _ fun e => ?_
      subst e
      exact hne (h0 x hx)
    refine ⟨fun x hx => ?_, fun l i y hy => ?_, fun l rd hrd => ?_, fun r x hx l hxl => ?_⟩
    · rw [State.ring_modRing_same] at hx
      obtain ⟨y, hy, rfl⟩ := Option.map_eq_some_iff.mp hx
      exact (hl y).trans (h0 y hy)
    · obtain ⟨x, hx, hxl⟩ := hslots l i y hy
      exact ⟨x, (hbound _ x hx (by simp [hxl])).symm ▸ hx, hxl⟩
    · obtain ⟨x, hx, hxl⟩ := hreads l rd hrd
      exact ⟨x, (hbound _ x hx (by simp [hxl.1])).symm ▸ hx, hxl⟩
    · by_cases e : r = 0
      · subst e
        rw [State.ring_modRing_same] at hx
        obtain ⟨y, hy, rfl⟩ := Option.map_eq_some_iff.mp hx
        rw [hl y, h0 y hy] at hxl
        cases hxl
      · rw [State.ring_modRing_ne _ _ e] at hx
        exact hcounts r x hx l hxl

theorem State.Keeps.tellWriter {s : State} (hw : s.working = true) (w : Writer) : s.Keeps (s.tellWriter w) := by
  cases w with
  | slot l i => exact .slotWritten hw l i
  | admin =>
    have hring : s.Keeps (s.modRing 0 fun q => { q with inFlight := 0 }) := .modRing0 hw (fun _ => id) fun _ => rfl
    have hwr : (s.modRing 0 fun q => { q with inFlight := 0 }).working = true := hw
    exact hring.trans (.ofAdmin hwr .reset)
  | scanner l =>
    unfold State.tellWriter
    exact .modLineConfig hw fun _ => ⟨rfl, rfl, rfl⟩
  | notice l =>
    unfold State.tellWriter
    exact .modLineConfig hw fun _ => ⟨rfl, rfl, rfl⟩

theorem CRing.Ok.writeEnded {c : CRing} (h : c.Ok) : c.writeEnded.Ok := by
  obtain ⟨h1, h2, h3, h4, h5, h6, h7⟩ := h
  refine ⟨h1, h2, h3, ?_, h5, h6, h7⟩
  show nextIndex (ringSize c.sizeCode) c.tail = (c.head + (c.written + 1)) % ringSize c.sizeCode
  rw [nextIndex, h4, Nat.mod_add_mod, Nat.add_assoc]

theorem State.coalesce_working (s : State) (r : CRingId) (urgent : Bool) : (s.coalesce r urgent).working = s.working := by
  rw [State.coalesce_frame]; rfl

theorem State.Keeps.completionTold {s : State} (hw : s.working = true) (r : CRingId) (urgent : Bool) (w : Writer) :
    s.Keeps ((s.coalesce r urgent).tellWriter w) :=
  .trans (.coalesce hw r urgent) (.tellWriter ((s.coalesce_working r urgent).trans hw) w)

theorem State.Keeps.completionEnds (s : State) (r : CRingId) (w : BusWrite) : s.Keeps (s.completionEnds r w) := by
  unfold State.completionEnds
  split
  · next hw =>
    split
    · exact .refl s
    · next c hc =>
      split
      · exact .refl s
      · next wr hwr =>
        dsimp only
        split
        · generalize hu : s.hostWrite _ _ = u
          have hkeeps : s.Keeps u := hu ▸ .hostWrite s _ _
          have hwu : u.working = true := hu ▸ hw
          have hring : u.Keeps (u.setCRing r (some c.writeEnded)) := .setCRing hwu fun h z hz => by
            obtain rfl := Option.some.inj (Option.mem_def.mp hz)
            exact (h c (hu ▸ hc)).writeEnded
          have hwr : (u.setCRing r (some c.writeEnded)).working = true := hwu
          exact hkeeps.trans (hring.trans (.completionTold hwr _ _ _))
        · generalize hu : s.hostWriteMasked _ _ _ = u
          have hkeeps : s.Keeps u := hu ▸ .hostWriteMasked s _ _ _
          have hring : u.Keeps (u.setCRing r (some { c with write := none })) := .setCRing (hu ▸ hw) fun h z hz => by
            obtain rfl := Option.some.inj (Option.mem_def.mp hz)
            exact h c (hu ▸ hc)
          exact hkeeps.trans (hring.trans (.deviceFault _ _))
  · exact .refl s

/-! ## Admin commands (chapter 9) -/

theorem State.Keeps.adminReport {s : State} (hw : s.working = true) (report : List Byte) (buf : Addr) :
    s.Keeps (s.adminReport report buf) := by
  unfold State.adminReport
  extract_lets t
  have ht : s.Keeps t := .ofAdmin hw _
  have hwt : t.working = true := hw
  split
  · exact ht
  · exact ht.decide hw _ _ rfl

theorem State.Keeps.report {s t : State} (h : s.Keeps t) (hw : s.working = true) (report : List Byte) (buf : Addr)
    (e : t.working = s.working) : s.Keeps (t.adminReport report buf) :=
  h.trans (.adminReport (e.trans hw) _ _)

theorem indexOf_some {n : Nat} {b : Byte} {i : Fin n} : indexOf n b = some i ↔ b.toNat = i.val := by
  unfold indexOf
  split
  · next h => simp [Fin.ext_iff]
  · next h =>
    simp only [false_iff, reduceCtorEq]
    intro e
    exact h (e ▸ i.isLt)

theorem txnRingOf_some {b : Byte} {r : RingId} (h : txnRingOf b = some r) : r ≠ 0 ∧ b.toNat = r.val := by
  unfold txnRingOf at h
  split at h
  · cases h
  · next hb =>
    have e := indexOf_some.mp h
    refine ⟨fun e0 => hb ?_, e⟩
    subst e0
    simpa [BitVec.toNat_eq] using e

theorem State.Keeps.adminRingCreate {s : State} (hw : s.working = true) (ring sizeCode line cls cring : Byte) (base : Addr) :
    s.Keeps (s.adminRingCreate ring sizeCode line cls cring base) := by
  unfold State.adminRingCreate
  split
  · next r l c q hr _ _ _ =>
    split
    · exact .adminDecide hw _ _
    · next hg =>
      split
      · exact .adminDecide hw _ _
      · split
        · exact .adminDecide hw _ _
        · split
          · exact .adminDecide hw _ _
          · next hnone =>
            have hnone : s.ring r = none := by simpa using hnone
            have h0 := (txnRingOf_some hr).1
            refine .decide ?_ hw _ _ rfl
            exact
              { mem := id, keys := id, queues := id
                rings := fun h => ⟨fun p x hx => by
                  by_cases e : p = r
                  · subst e
                    rw [State.ring_setRing_same] at hx
                    obtain rfl := Option.some.inj (Option.mem_def.mp hx)
                    exact newRing_ok (ringGeometryOk_code (by simpa using hg)) _ _ _
                  · rw [State.ring_setRing_ne _ _ e] at hx
                    exact h.1 p x hx, h.2⟩
                rest := fun _ => .of_working hw
                inFlight := fun _ h _ => by
                  obtain ⟨hz, hslots, hreads, hcounts⟩ := h hw
                  have hold : ∀ p, ∀ x ∈ s.ring p, x ∈ (s.setRing r (some (newRing base sizeCode.toNat (some l) (some c) q))).ring p := by
                    intro p x hx
                    rw [State.ring_setRing_ne _ _ fun e => ?_]
                    · exact hx
                    · subst e; rw [hnone] at hx; cases hx
                  refine ⟨fun x hx => ?_, fun k i y hy => ?_, fun k rd hrd => ?_, fun p x hx k hxk => ?_⟩
                  · rw [State.ring_setRing_ne _ _ (Ne.symm h0)] at hx
                    exact hz x hx
                  · obtain ⟨x, hx, hxl⟩ := hslots k i y hy
                    exact ⟨x, hold _ x hx, hxl⟩
                  · obtain ⟨x, hx, hxl⟩ := hreads k rd hrd
                    exact ⟨x, hold _ x hx, hxl⟩
                  · by_cases e : p = r
                    · subst e
                      rw [State.ring_setRing_same] at hx
                      obtain rfl := Option.some.inj (Option.mem_def.mp hx)
                      refine ⟨?_, Nat.zero_le _⟩
                      show 0 = (s.line k).slotsOf p
                      simp only [Line.slotsOf, eq_comm (a := 0), List.length_eq_zero_iff, List.filter_eq_nil_iff, Line.holdsOf_eq]
                      intro i _ hi
                      simp only [beq_iff_eq, Option.map_eq_some_iff] at hi
                      obtain ⟨y, hy, hyr⟩ := hi
                      obtain ⟨x, hx, -⟩ := hslots k i y hy
                      rw [hyr, hnone] at hx
                      cases hx
                    · rw [State.ring_setRing_ne _ _ e] at hx
                      exact hcounts p x hx k hxk }
  · exact .adminDecide hw _ _

theorem State.Keeps.adminRingPause {s : State} (hw : s.working = true) (ring : Byte) : s.Keeps (s.adminRingPause ring) := by
  unfold State.adminRingPause
  split
  · exact .adminDecide hw _ _
  · split
    · exact .adminDecide hw _ _
    · next hx =>
      split
      · exact .adminDecide hw _ _
      · refine .decide ?_ hw _ _ rfl
        exact .setRing hw (State.namedRing_some hx).1 id rfl

theorem State.Keeps.adminRingResume {s : State} (hw : s.working = true) (ring cls : Byte) : s.Keeps (s.adminRingResume ring cls) := by
  unfold State.adminRingResume
  split
  · split
    · exact .adminDecide hw _ _
    · next hx =>
      split
      · exact .adminDecide hw _ _
      · refine .decide ?_ hw _ _ rfl
        exact .setRing hw (State.namedRing_some hx).1 id rfl
  · exact .adminDecide hw _ _

theorem State.Keeps.adminRingDelete {s : State} (hw : s.working = true) (ring mode : Byte) : s.Keeps (s.adminRingDelete ring mode) := by
  unfold State.adminRingDelete
  split
  · exact .adminDecide hw _ _
  · next r _ =>
    split
    · exact .adminDecide hw _ _
    · split
      · exact .adminDecide hw _ _
      · next x hx =>
        extract_lets n t u
        have ht : s.Keeps t := .setRing hw (State.namedRing_some hx).1 id rfl
        have hu : t.LineWork u := by
          unfold u
          split
          · split
            · exact .modLine (.ringAborted _ r) rfl
            · exact .refl t
          · exact .refl t
        exact .wait (ht.trans (hu.keeps hw)) hw _ _ hu.working

theorem State.Keeps.adminCringCreate {s : State} (hw : s.working = true) (ring sizeCode n : Byte) (ie : Bool) (t : Half) (base : Addr) :
    s.Keeps (s.adminCringCreate ring sizeCode n ie t base) := by
  unfold State.adminCringCreate
  split
  · exact .adminDecide hw _ _
  · split
    · exact .adminDecide hw _ _
    · next hg =>
      split
      · exact .adminDecide hw _ _
      · refine .decide (.setCRing hw fun _ z hz => ?_) hw _ _ rfl
        obtain rfl := Option.some.inj (Option.mem_def.mp hz)
        simp only [Bool.or_eq_true, Bool.not_eq_true', beq_iff_eq, not_or, Bool.not_eq_false] at hg
        have hn : n.toNat ≠ 0 := fun e => hg.2 (BitVec.eq_of_toNat_eq e)
        exact newCRing_ok (ringGeometryOk_code hg.1) ⟨by omega, by have := n.isLt; omega⟩ _ _

theorem State.Keeps.policySteps {s : State} (hw : s.working = true) {r : CRingId} {c : CRing} (hc : s.cring r = some c) :
    s.Keeps (s.policySteps r c) := by
  have htimer : ∀ t : Option Nat, s.Keeps (s.setCRing r (some { c with timer := t })) := fun t => .setCRing hw fun h z hz => by
    obtain rfl := Option.some.inj (Option.mem_def.mp hz)
    exact h c hc
  unfold State.policySteps
  split
  · exact .signalRing hw r
  · split
    · exact htimer _
    · split
      · split
        · exact .signalRing hw r
        · exact .refl s
      · split
        · exact htimer _
        · exact .refl s

theorem State.policySteps_working (s : State) (r : CRingId) (c : CRing) : (s.policySteps r c).working = s.working := by
  unfold State.policySteps
  split
  · rfl
  · split
    · rfl
    · split <;> split <;> rfl

theorem State.Keeps.adminCringPolicy {s : State} (hw : s.working = true) (ring n : Byte) (ie : Bool) (t : Half) :
    s.Keeps (s.adminCringPolicy ring n ie t) := by
  unfold State.adminCringPolicy
  split
  · exact .adminDecide hw _ _
  · next r _ =>
    split
    · exact .adminDecide hw _ _
    · next hn =>
      split
      · exact .adminDecide hw _ _
      · next c hc =>
        dsimp only
        generalize hd : ({ c with threshold := n.toNat, time := t.toNat, intEnable := ie } : CRing) = d
        have hwd : (s.setCRing r (some d)).working = true := hw
        refine .decide (.trans ?_ (.policySteps hwd (State.cring_setCRing_same _ _ _)))
          hw _ _ (State.policySteps_working _ _ _)
        refine .setCRing hw fun h z hz => ?_
        subst hd
        obtain rfl := Option.some.inj (Option.mem_def.mp hz)
        obtain ⟨h1, h2, h3, h4, -, -, h7⟩ := h c hc
        have hn0 : n.toNat ≠ 0 := fun e => hn (BitVec.eq_of_toNat_eq e)
        exact ⟨h1, h2, h3, h4, show 1 ≤ n.toNat by omega, show n.toNat ≤ 255 by have := n.isLt; omega, h7⟩

theorem State.Keeps.adminCringDelete {s : State} (hw : s.working = true) (ring : Byte) : s.Keeps (s.adminCringDelete ring) := by
  unfold State.adminCringDelete
  split
  · exact .adminDecide hw _ _
  · next r _ =>
    split
    · exact .adminDecide hw _ _
    · split
      · exact .adminDecide hw _ _
      · have hring : s.Keeps (s.setCRing r none) := .setCRing hw fun _ z hz => by cases hz
        have hcause : (s.setCRing r none).Keeps ((s.setCRing r none).clearCause r.val) := .ofRegs rfl
        exact .decide (hring.trans hcause) hw _ _ rfl

theorem State.Keeps.adminPoolCreate {s : State} (hw : s.working = true) (sizeCode : Byte) (base : Addr) :
    s.Keeps (s.adminPoolCreate sizeCode base) := by
  unfold State.adminPoolCreate
  split
  · exact .adminDecide hw _ _
  · next hg =>
    split
    · exact .adminDecide hw _ _
    · refine .decide (.setPool hw fun _ z hz => ?_) hw _ _ rfl
      obtain rfl := Option.some.inj (Option.mem_def.mp hz)
      obtain ⟨h1, h2⟩ := ringGeometryOk_code (by simpa using hg)
      exact ⟨h1, h2, ringSize_pos _, ringSize_pos _⟩

theorem State.Keeps.adminPoolDelete {s : State} (hw : s.working = true) : s.Keeps s.adminPoolDelete := by
  unfold State.adminPoolDelete
  split
  · exact .adminDecide hw _ _
  · split
    · exact .adminDecide hw _ _
    · exact .decide (.setPool hw fun _ z hz => by cases hz) hw _ _ rfl

theorem State.Keeps.adminLineConfig {s : State} (hw : s.working = true) (line : Byte) (f : LineFields) :
    s.Keeps (s.adminLineConfig line f) := by
  unfold State.adminLineConfig
  split
  · split
    · exact .adminDecide hw _ _
    · split
      · exact .adminDecide hw _ _
      · split
        · exact .adminDecide hw _ _
        · refine .decide ?_ hw _ _ rfl
          exact .modLineConfig hw fun _ => ⟨rfl, rfl, rfl⟩
  · exact .adminDecide hw _ _

theorem State.Keeps.adminLineStart {s : State} (hw : s.working = true) (line : Byte) : s.Keeps (s.adminLineStart line) := by
  unfold State.adminLineStart
  have hstart : ∀ l, s.Keeps ((s.modLine l (Line.enterStarting s.nowUs)).adminWait (.lineStart l) 0) := fun l => by
    refine .wait ?_ hw _ _ rfl
    exact .modLineConfig hw fun _ => ⟨rfl, rfl, rfl⟩
  split
  · exact .adminDecide hw _ _
  · split
    · exact .adminDecide hw _ _
    · split
      · exact hstart _
      · exact hstart _
      · exact .adminDecide hw _ _
      · exact .adminDecide hw _ _
      · exact .adminDecide hw _ _

theorem State.Keeps.adminLineStop {s : State} (hw : s.working = true) (line mode : Byte) : s.Keeps (s.adminLineStop line mode) := by
  have hwait : ∀ t : State, s.LineWork t → ∀ w, s.Keeps (t.adminWait w 0) := fun t h w =>
    .wait (h.keeps hw) hw w 0 h.working
  unfold State.adminLineStop
  split
  · exact .adminDecide hw _ _
  · split
    · exact .adminDecide hw _ _
    · split
      · exact .adminDecide hw _ _
      · refine .decide ?_ hw _ _ rfl
        exact .modLineConfig hw fun _ => ⟨rfl, rfl, rfl⟩
      · split
        · exact hwait _ (.gracefulStop s _) _
        · exact hwait _ (.abortLine s _) _
      · exact .adminDecide hw _ _
      · exact .adminDecide hw _ _

theorem State.Keeps.adminStationAttach {s : State} (hw : s.working = true) (line addr : Byte) (period : Half) :
    s.Keeps (s.adminStationAttach line addr period) := by
  unfold State.adminStationAttach
  split
  · exact .adminDecide hw _ _
  · next l _ =>
    split
    · exact .adminDecide hw _ _
    · next hok =>
      split
      · exact .adminDecide hw _ _
      · split
        · exact .adminDecide hw _ _
        · next hkey =>
          split
          · exact .adminDecide hw _ _
          · next e he =>
            have hfree : s.station e = none := by simpa using List.find?_some he
            have haddr : 1 ≤ addr.toNat ∧ addr.toNat ≤ 126 := by
              simp only [Bool.or_eq_true, not_or, Bool.not_eq_true, Bool.not_eq_false', stationAddrOk, decide_eq_true_eq] at hok
              exact hok.1
            have hno : ∀ f, ∀ x ∈ s.station f, ¬ (x.line = l ∧ x.addr = addr.toNat) := by
              intro f x hx hk
              have hnone : s.lookup l addr.toNat = none := by simpa using hkey
              have := List.find?_eq_none.mp hnone f (List.mem_finRange f)
              simp [State.entryHasKey, Option.mem_def.mp hx, hk] at this
            refine .decide ?_ hw _ _ rfl
            exact
              { mem := id
                keys := fun h => by
                  have hback : ∀ f, ∀ x ∈ (s.setStation e (some (newStation l addr.toNat period.toNat s.nowMs))).station f,
                      (f = e ∧ x.line = l ∧ x.addr = addr.toNat) ∨ (f ≠ e ∧ x ∈ s.station f) := by
                    intro f x hx
                    by_cases k : f = e
                    · subst k
                      rw [State.station_setStation_same] at hx
                      obtain rfl := Option.some.inj (Option.mem_def.mp hx)
                      exact .inl ⟨rfl, rfl, rfl⟩
                    · rw [State.station_setStation_ne _ _ k] at hx
                      exact .inr ⟨k, hx⟩
                  refine ⟨fun f x hx => ?_, fun f g x hx y hy hl ha => ?_⟩
                  · rcases hback f x hx with ⟨-, -, ea⟩ | ⟨-, hx'⟩
                    · omega
                    · exact h.1 f x hx'
                  · rcases hback f x hx with ⟨ef, hxl, hxa⟩ | ⟨-, hx'⟩
                    · rcases hback g y hy with ⟨eg, -, -⟩ | ⟨-, hy'⟩
                      · exact ef.trans eg.symm
                      · exact absurd ⟨hl.symm.trans hxl, ha.symm.trans hxa⟩ (hno g y hy')
                    · rcases hback g y hy with ⟨-, hyl, hya⟩ | ⟨-, hy'⟩
                      · exact absurd ⟨hl.trans hyl, ha.trans hya⟩ (hno f x hx')
                      · exact h.2 f g x hx' y hy' hl ha
                queues := fun h k => by
                  refine ⟨(h k).1, fun f => ((h k).2 f).trans ?_⟩
                  by_cases ef : f = e
                  · subst ef
                    simp [hfree, newStation]
                  · rw [State.station_setStation_ne _ _ ef]
                rings := id
                rest := fun _ => .of_working hw
                inFlight := fun _ => .congr (fun _ => hw) (fun _ => rfl) fun _ => .refl _ }

theorem State.Keeps.adminStationDetach {s : State} (hw : s.working = true) (line addr : Byte) :
    s.Keeps (s.adminStationDetach line addr) := by
  unfold State.adminStationDetach
  split
  · exact .adminDecide hw _ _
  · split
    · exact .adminDecide hw _ _
    · split
      · exact .adminDecide hw _ _
      · next e _ =>
        extract_lets t
        have ht : s.LineWork t := .modLine (.detachSlots _ _) rfl
        have hwt : t.working = true := hw
        split
        · have hu := (State.TableWork.changeState t e .detaching).work
          exact .wait ((ht.keeps hw).trans (hu.keeps hwt)) hw _ _ hu.working
        · have hu := (State.TableWork.freeEntry t e).work
          exact .decide ((ht.keeps hw).trans (hu.keeps hwt)) hw _ _ hu.working

theorem State.Keeps.adminStationScan {s : State} (hw : s.working = true) (line addr : Byte) (period : Half) :
    s.Keeps (s.adminStationScan line addr period) := by
  unfold State.adminStationScan
  split
  · exact .adminDecide hw _ _
  · split
    · exact .adminDecide hw _ _
    · split
      · exact .adminDecide hw _ _
      · split
        · exact .adminDecide hw _ _
        · split
          · exact .adminDecide hw _ _
          · next hx =>
            refine .decide ?_ hw _ _ rfl
            refine State.LineWork.keeps (State.TableWork.work ?_) hw
            exact .setStation hx rfl rfl rfl

theorem State.Keeps.adminStationQuery {s : State} (hw : s.working = true) (index : Byte) (clear : Bool) (buf : Addr) :
    s.Keeps (s.adminStationQuery index clear buf) := by
  unfold State.adminStationQuery
  split
  · exact .adminDecide hw _ _
  · split
    · exact .adminDecide hw _ _
    · next hx =>
      dsimp only
      split
      · refine .report ?_ hw _ _ rfl
        refine State.LineWork.keeps (State.TableWork.work ?_) hw
        exact .setStation hx rfl rfl rfl
      · exact .adminReport hw _ _

theorem State.Keeps.adminLineQuery {s : State} (hw : s.working = true) (line part : Byte) (clear : Bool) (buf : Addr) :
    s.Keeps (s.adminLineQuery line part clear buf) := by
  unfold State.adminLineQuery
  split
  · exact .adminDecide hw _ _
  · split
    · exact .adminDecide hw _ _
    · dsimp only
      split
      · refine .report ?_ hw _ _ rfl
        exact .modLineConfig hw fun _ => ⟨rfl, rfl, rfl⟩
      · exact .adminReport hw _ _

theorem State.Keeps.runAdmin {s : State} (hw : s.working = true) (c : AdminCmd) : s.Keeps (s.runAdmin c) := by
  cases c with
  | ringCreate ring sizeCode line cls cring base => exact .adminRingCreate hw ring sizeCode line cls cring base
  | ringPause ring => exact .adminRingPause hw ring
  | ringResume ring cls => exact .adminRingResume hw ring cls
  | ringDelete ring mode => exact .adminRingDelete hw ring mode
  | cringCreate ring sizeCode n ie t base => exact .adminCringCreate hw ring sizeCode n ie t base
  | cringPolicy ring n ie t => exact .adminCringPolicy hw ring n ie t
  | cringDelete ring => exact .adminCringDelete hw ring
  | poolCreate sizeCode base => exact .adminPoolCreate hw sizeCode base
  | poolDelete => exact .adminPoolDelete hw
  | lineConfig line f => exact .adminLineConfig hw line f
  | lineStart line => exact .adminLineStart hw line
  | lineStop line mode => exact .adminLineStop hw line mode
  | stationAttach line addr period => exact .adminStationAttach hw line addr period
  | stationDetach line addr => exact .adminStationDetach hw line addr
  | stationScan line addr period => exact .adminStationScan hw line addr period
  | stationQuery index clear buf => exact .adminStationQuery hw index clear buf
  | lineQuery line part clear buf => exact .adminLineQuery hw line part clear buf

theorem State.adminReading_working {s : State} (h : s.adminReading = true) : s.working = true := by
  simp only [State.adminReading, Bool.and_eq_true] at h
  exact h.2

theorem State.Keeps.takeAdmin (s : State) (record : List Byte) (cmd : Option AdminCmd) : s.Keeps (s.takeAdmin record cmd) := by
  unfold State.takeAdmin
  split
  · next h =>
    have hw := State.adminReading_working h
    extract_lets t
    have ht : s.Keeps t := by
      generalize hu : (s.modRing 0 fun q => { q with head := nextIndex (ringSize q.sizeCode) q.head, inFlight := 1 }) = u
      have hring : s.Keeps u := hu ▸ .modRing0 hw (fun x ⟨h1, h2, _, h4⟩ => ⟨h1, h2, nextIndex_lt _ _, h4⟩) fun _ => rfl
      have e : t = { u with admin := t.admin } := by subst hu; rfl
      exact e ▸ hring.trans (.ofAdmin (hu ▸ hw) _)
    have hwt : t.working = true := hw
    split
    · exact ht.decide hw _ _ rfl
    · split
      · exact ht.decide hw _ _ rfl
      · exact ht.trans (.runAdmin hwt _)
  · exact .refl s

theorem State.Keeps.takeCommand (s : State) (tag : Half) (c : AdminCmd) : s.Keeps (s.takeCommand tag c) := .takeAdmin s _ _

theorem State.Keeps.adminReadEnds (s : State) (r : BusRead) : s.Keeps (s.adminReadEnds r) := by
  unfold State.adminReadEnds
  split
  · split
    · exact .deviceFault s _
    · exact .refl s
  · exact .takeAdmin s _ _

/-! ## Events of lines and of time -/

/-- Without work in hand an event of a line or of time changes nothing but the level of an RXD input (R72, R171). -/
theorem State.Keeps.lineEvent {s t : State} (h : s.LineWork t) (hr : s.working = false → t = s) : s.Keeps t := by
  cases hw : s.working with
  | true => exact h.keeps hw
  | false => rw [hr hw]; exact .refl s

theorem State.Keeps.rxdTakes (s : State) (l : LineId) (level : Level) : s.Keeps (s.rxdTakes l level) := by
  cases hw : s.working with
  | true => exact (State.LineWork.rxdTakes s l level).keeps hw
  | false =>
    unfold State.rxdTakes
    dsimp only
    split
    · exact .refl s
    · simp only [hw, Bool.and_false]
      exact
        { mem := id, keys := id
          queues := .congr (State.modLine_lines (s := s) (R := fun x y => y.noticeQueue = x.noticeQueue) (fun _ => rfl) rfl) fun _ => rfl
          rings := id
          rest := fun h _ => by
            obtain ⟨hl, hrest⟩ := h hw
            refine ⟨fun k => ?_, hrest⟩
            by_cases e : k = l
            · subst e
              rw [State.line_modLine_same]
              exact hl k
            · rw [State.line_modLine_ne _ _ e]
              exact hl k
          inFlight := fun _ _ => .of_not_working hw }

theorem State.Keeps.coalescingExpires (s : State) (r : CRingId) : s.Keeps (s.coalescingExpires r) := by
  unfold State.coalescingExpires
  split
  · exact .refl s
  · split
    · exact .refl s
    · split
      · next hw => exact .trans (t := s.reachUs _) (.ofRegs rfl) (.signalRing (s := s.reachUs _) hw r)
      · exact .refl s

/-- Every effect of a command or event keeps the laws. -/
theorem State.Keeps.effect (i : Instr) (s : State) : s.Keeps (s.effect i) := by
  have hidle : ∀ {t : State}, s.LineWork t → (s.working = false → t = s) → s.Keeps t := State.Keeps.lineEvent
  cases i with
  | powerOnReset => exact .resetAll s _
  | hardReset => exact .resetAll s _
  | enable v => exact .writeEnable s v
  | intEnable v => exact .ofRegs rfl
  | post ring tail => exact .writePost s ring tail
  | release ring head => exact .writeRelease s ring head
  | intcause v => exact .ofRegs rfl
  | registerWrite reg v => exact .writeReg s reg v
  | bootstrapRead r => exact .bootReadEnds s r
  | recordRead l r => exact .recordReadEnds s l r
  | payloadRead l i r => exact .payloadReadEnds s l i r
  | dataWrite l i w => exact .dataWriteEnds s l i w
  | poolEntryRead l r => exact .poolReadEnds s l r
  | scanDataWrite l w => exact .scanWriteEnds s l w
  | reportWrite w => exact .reportWriteEnds s w
  | completionWrite r w => exact .completionEnds s r w
  | leadTime l =>
    exact hidle (.leadEnds s l) fun h => by
      show s.leadEnds l = s
      unfold State.leadEnds
      dsimp only
      split <;> simp [h]
  | characterSent l => exact hidle (.characterEnds s l) fun h => if_neg (by simp [h])
  | characterReceived l c => exact hidle (.characterArrives s l c) fun h => if_neg (by simp [h])
  | rxdTransition l level => exact .rxdTakes s l level
  | responseTimeout l => exact hidle (.responseExpires s l) fun h => if_neg (by simp [h])
  | gapLimit l =>
    exact hidle (.gapExpires s l) fun h => by
      show s.gapExpires l = s
      unfold State.gapExpires
      split <;> simp [h]
  | settleTime l =>
    exact hidle (.settleExpires s l) fun h => by
      show s.settleExpires l = s
      unfold State.settleExpires
      split <;> simp [h]
  | settleLimit l =>
    exact hidle (.settleLimitExpires s l) fun h => by
      show s.settleLimitExpires l = s
      unfold State.settleLimitExpires
      split <;> simp [h]
  | startQuiet l =>
    exact hidle (.startQuietExpires s l) fun h => by
      show s.startQuietExpires l = s
      unfold State.startQuietExpires
      split <;> simp [h]
  | startLimit l =>
    exact hidle (.startLimitExpires s l) fun h => by
      show s.startLimitExpires l = s
      unfold State.startLimitExpires
      split <;> simp [h]
  | stuckLimit l =>
    exact hidle (.stuckExpires s l) fun h => by
      show s.stuckExpires l = s
      unfold State.stuckExpires
      split <;> simp [h]
  | clockedStartWait l =>
    exact hidle (.clockedWaitEnds s l) fun h => by
      show s.clockedWaitEnds l = s
      unfold State.clockedWaitEnds
      split <;> simp [h]
  | holdOffEnd e =>
    exact hidle (.holdOffExpires s e) fun h => by
      show s.holdOffExpires e = s
      unfold State.holdOffExpires
      split
      · rfl
      · split <;> simp [h]
  | nextDue e =>
    exact hidle (.dueReached s e) fun h => by
      show s.dueReached e = s
      unfold State.dueReached
      split <;> simp [h]
  | coalescingTimer r => exact .coalescingExpires s r
  | falseStart l => exact hidle (.falseStartTaken s l) fun h => if_neg (by simp [h])
  | adminRecordRead r => exact .adminReadEnds s r
  | _ => exact .takeCommand s _ _

/-! ## The units' own acts -/

/-- A drained ring is held by no slot and no record read (R132). -/
theorem State.Keeps.drain {s : State} (hw : s.working = true) {r : RingId} (h : s.drained r = true) : s.Keeps (s.setRing r none) := by
  unfold State.drained at h
  split at h
  · next x hx =>
    simp only [Bool.and_eq_true, beq_iff_eq, Bool.not_eq_true'] at h
    obtain ⟨⟨-, hzero⟩, hread⟩ := h
    exact
      { mem := id, keys := id, queues := id
        rings := fun h => ⟨fun q y hy => by
          by_cases e : q = r
          · subst e; rw [State.ring_setRing_same] at hy; cases hy
          · rw [State.ring_setRing_ne _ _ e] at hy
            exact h.1 q y hy, h.2⟩
        rest := fun _ => .of_working hw
        inFlight := fun _ h _ => by
          obtain ⟨h0, hslots, hreads, hcounts⟩ := h hw
          refine ⟨fun y hy => ?_, fun l i y hy => ?_, fun l rd hrd => ?_, fun q y hy l hyl => ?_⟩
          · by_cases e : 0 = r
            · rw [← e, State.ring_setRing_same] at hy; cases hy
            · rw [State.ring_setRing_ne _ _ e] at hy
              exact h0 y hy
          · obtain ⟨z, hz, hzl⟩ := hslots l i y hy
            have hne : y.ring ≠ r := fun e => by
              rw [e, hx] at hz
              obtain rfl := Option.some.inj (Option.mem_def.mp hz)
              have hnone := ((hcounts r x hx l hzl).1.symm.trans hzero)
              simp only [Line.slotsOf, List.length_eq_zero_iff, List.filter_eq_nil_iff, Line.holdsOf_eq] at hnone
              exact hnone i (List.mem_finRange i) (by simp [show (s.line l).slot i = some y from hy, e])
            exact ⟨z, by rwa [State.ring_setRing_ne _ _ hne], hzl⟩
          · obtain ⟨z, hz, hzl⟩ := hreads l rd hrd
            have hne : rd.ring ≠ r := fun e => by
              have : s.readInProgress r = true := by
                unfold State.readInProgress
                refine List.any_eq_true.mpr ⟨l, List.mem_finRange l, ?_⟩
                rw [show (s.line l).read = some rd from hrd]
                exact beq_iff_eq.mpr e
              simp [this] at hread
            exact ⟨z, by rwa [State.ring_setRing_ne _ _ hne], hzl⟩
          · by_cases e : q = r
            · subst e; rw [State.ring_setRing_same] at hy; cases hy
            · rw [State.ring_setRing_ne _ _ e] at hy
              exact hcounts q y hy l hyl }
  · cases h

theorem Line.slotsOf_congr {x y : Line} (h : ∀ i, y.slot i = x.slot i) (r : RingId) : y.slotsOf r = x.slotsOf r := by
  unfold Line.slotsOf
  simp only [funext (Line.holdsOf_eq _ r), h]

/-- A record read begins on a line that has none, of a ring bound to it with room for another record (R40, R41). -/
theorem State.Keeps.beginIntake (s : State) (l : LineId) (hw : s.working = true) : s.Keeps (s.beginIntake l) := by
  unfold State.beginIntake
  split
  · exact .refl s
  · next c r h =>
    obtain ⟨-, -, he⟩ := State.intakeChoice_some h
    obtain ⟨x, hx, -, -, hxl, -, -, -, hread, hlt, -⟩ := State.intakeEligible_iff.mp he
    rw [Option.mem_def.mp hx]
    refine ((State.SideWork.reserve s x.cring).work.keeps hw).trans ?_
    set u := s.reserve x.cring with hu
    have hline : u.line l = s.line l := rfl
    exact
      { mem := id, keys := id
        queues := .congr (State.modLine_lines (s := u) (R := fun x y => y.noticeQueue = x.noticeQueue) (fun _ => rfl) rfl) fun _ => rfl
        rings := id
        rest := fun _ => .of_working hw
        inFlight := fun _ h _ => by
          obtain ⟨h0, hslots, hreads, hcounts⟩ := h hw
          have hslot : ∀ k i, (u.modLine l fun ln => { ln with
              intakeLast := vput ln.intakeLast c (some r), read := some ⟨r, x.head, x.placeAddr x.head, []⟩ }).slot k i = u.slot k i :=
            fun k i => by
              by_cases e : k = l
              · subst e; rw [State.slot, State.line_modLine_same]; rfl
              · rw [State.slot, State.line_modLine_ne _ _ e]; rfl
          refine ⟨h0, fun k i y hy => hslots k i y ((hslot k i).symm.trans hy), fun k rd hrd => ?_, fun q y hy k hyk => ?_⟩
          · by_cases e : k = l
            · subst e
              rw [State.line_modLine_same] at hrd
              obtain rfl := Option.some.inj (Option.mem_def.mp hrd)
              exact ⟨x, hx, hxl, hlt⟩
            · rw [State.line_modLine_ne _ _ e] at hrd
              exact hreads k rd hrd
          · rw [Line.slotsOf_congr (hslot k) q]
            exact hcounts q y hy k hyk }

theorem State.Keeps.grantLine (s : State) (l : LineId) (hw : s.working = true) : s.Keeps (s.grantLine l) := by
  have hexchange : ∀ (u : State) (f : Line → Line) (a : Attempt), u.working = true → (∀ x : Line, x.Kept (f x)) →
      u.Keeps (u.modLine l fun x => (f x).beginExchange s.nowUs a) := fun u f a hu hf =>
    .modLineConfig hu fun x => (hf x).trans (.beginExchange _ _ _)
  unfold State.grantLine
  split
  · next c i _ =>
    unfold State.grantSlot
    split
    · exact .refl s
    · dsimp only
      refine .trans ?_ (hexchange _ _ _ hw fun _ => ⟨rfl, rfl, rfl⟩)
      refine (State.LineWork.modLine ⟨fun j => ?_, rfl⟩ rfl).keeps hw
      by_cases e : j = i
      · subst e
        rw [Line.slot_modSlot_same, Option.map_map]
        rfl
      · rw [Line.slot_modSlot_ne _ _ e]
  · unfold State.grantPoll
    split
    · exact .refl s
    · exact hexchange s _ _ hw fun _ => ⟨rfl, rfl, rfl⟩
  · exact .refl s

/-- The notice taken leaves the queue and is no longer pending (R32, R117). -/
theorem State.Keeps.takeNotice {s t : State} {l : LineId} {rec : CompRecord} (hw : s.working = true)
    (h : s.takeNotice l = some (rec, t)) : s.Keeps t ∧ t.working = true := by
  simp only [State.takeNotice] at h
  split at h
  · cases h
    exact ⟨(State.LineWork.ofKept (s := s) (l := l) (f := fun x => { x with linePending := false }) fun _ => ⟨rfl, rfl, rfl⟩).keeps hw, hw⟩
  · split at h
    · cases h
    · next e rest hq =>
      split at h
      · cases h
      · next x hx =>
        cases h
        have hlineNe : ∀ k, k ≠ l → ((s.setLine l { s.line l with noticeQueue := rest }).setStation e
            (some { x with noticePending := false, changes := 0 })).line k = s.line k := fun k ek =>
          State.line_setLine_ne _ _ ek
        have hlineL : ((s.setLine l { s.line l with noticeQueue := rest }).setStation e
            (some { x with noticePending := false, changes := 0 })).line l = { s.line l with noticeQueue := rest } :=
          State.line_setLine_same _ _ _
        refine ⟨?_, hw⟩
        exact
          { mem := id
            keys := State.KeysKept.keysOk fun f y hy => by
              by_cases k : f = e
              · subst k
                rw [State.station_setStation_same] at hy
                obtain rfl := Option.some.inj (Option.mem_def.mp hy)
                exact ⟨x, hx, rfl, rfl⟩
              · rw [State.station_setStation_ne _ _ k] at hy
                exact ⟨y, hy, rfl, rfl⟩
            queues := fun h k => by
              have hxl : x.line = l := by
                obtain ⟨z, hz, hzl, -⟩ := ((h l).2 e).mp (by simp [hq])
                rw [hx] at hz
                obtain rfl := Option.some.inj (Option.mem_def.mp hz)
                exact hzl
              have hstation : ∀ f, (∃ y ∈ ((s.setLine l { s.line l with noticeQueue := rest }).setStation e
                    (some { x with noticePending := false, changes := 0 })).station f, y.line = k ∧ y.noticePending = true)
                  ↔ f ≠ e ∧ f ∈ (s.line k).noticeQueue := by
                intro f
                rw [(h k).2 f]
                by_cases hf : f = e
                · subst hf; simp
                · rw [State.station_setStation_ne _ _ hf]
                  simp [hf]
              simp only [hstation]
              by_cases ek : k = l
              · subst ek
                rw [hlineL]
                have hnodup := (h k).1
                rw [hq] at hnodup ⊢
                obtain ⟨hne, hrest⟩ := List.nodup_cons.mp hnodup
                exact ⟨hrest, fun f => by simp only [List.mem_cons]; grind⟩
              · rw [hlineNe k ek]
                refine ⟨(h k).1, fun f => ⟨fun hf => ⟨?_, hf⟩, And.right⟩⟩
                rintro rfl
                obtain ⟨z, hz, hzl, -⟩ := ((h k).2 f).mp hf
                rw [hx] at hz
                obtain rfl := Option.some.inj (Option.mem_def.mp hz)
                exact ek (hzl.symm.trans hxl)
            rings := id
            rest := fun _ => .of_working hw
            inFlight := fun _ => .congr (fun _ => hw) (fun _ => rfl) fun k => by
              by_cases ek : k = l
              · subst ek; rw [hlineL]; exact .of_eq rfl rfl
              · rw [hlineNe k ek]; exact .refl _ }

theorem State.Keeps.startNotice (s : State) (l : LineId) (r : CRingId) (hw : s.working = true) : s.Keeps (s.startNotice l r) := by
  unfold State.startNotice
  split
  · exact .refl s
  · next rec t h =>
    obtain ⟨ht, hwt⟩ := State.Keeps.takeNotice hw h
    have hreserve : t.Keeps (t.reserve r) := (State.SideWork.reserve t r).work.keeps hwt
    have hwr : (t.reserve r).working = true := hwt
    generalize t.reserve r = u at *
    refine ht.trans (hreserve.trans (.trans ?_ ((State.TableWork.requestWrite _ r _).work.keeps hwr)))
    exact .modLineConfig hwr fun _ => ⟨rfl, rfl, rfl⟩

theorem State.Keeps.beginWrite (s : State) (r : CRingId) (hw : s.working = true) : s.Keeps (s.beginWrite r) := by
  unfold State.beginWrite
  split
  · exact .refl s
  · next c hc =>
    split
    · exact .refl s
    · split
      all_goals
        refine .setCRing hw fun h z hz => ?_
        obtain rfl := Option.some.inj (Option.mem_def.mp hz)
        exact h c hc

/-- Every enabled act keeps the laws. -/
theorem State.Keeps.perform {s : State} {a : Act} (h : s.enabled a = true) : s.Keeps (s.perform a) := by
  have hw := State.enabled_working h
  cases a with
  | fence l i => exact (State.TableWork.enterReady s l i).work.keeps hw
  | drain r =>
    simp only [State.enabled, Bool.and_eq_true] at h
    exact .drain hw h.2
  | lineStopped l => exact .modLineConfig hw fun _ => ⟨rfl, rfl, rfl⟩
  | adminEnd =>
    change s.Keeps s.endAdminWait
    unfold State.endAdminWait
    split
    · have hf := State.LineWork.stopFaultedForAbort s
      exact .decide (hf.keeps hw) hw _ _ hf.working
    · exact .refl s
  | reachOff => exact .endDisable s
  | txn l => exact (State.TableWork.requestTxn s l).work.keeps hw
  | adminWrite =>
    have hwrite : s.Keeps (s.requestWrite 0 .admin) := (State.TableWork.requestWrite s 0 .admin).work.keeps hw
    have hwr : (s.requestWrite 0 .admin).working = true := hw
    exact hwrite.trans (.ofAdmin hwr _)
  | startWrite r => exact .beginWrite s r hw
  | intake l => exact .beginIntake s l hw
  | adminRead =>
    have hreserve : s.Keeps (s.reserve 0) := (State.SideWork.reserve s 0).work.keeps hw
    have hwr : (s.reserve 0).working = true := hw
    exact hreserve.trans (.ofAdmin hwr _)
  | scanReturn l => exact (State.SideWork.dropPoll s l).work.keeps hw
  | scanClaim l => exact (State.SideWork.scanClaimPlace s l).work.keeps hw
  | grant l => exact .grantLine s l hw
  | notice l =>
    change s.Keeps (s.writeNotice l)
    unfold State.writeNotice
    split
    · exact .startNotice s l _ hw
    · exact .refl s

/-! ## The step -/

theorem State.Keeps.step {s t : State} (h : step s = .next t) : s.Keeps t :=
  step_relates State.Keeps.refl (fun _ _ _ => State.Keeps.trans) (fun _ _ _ => .ofRegs rfl) (fun _ => .ofRegs rfl)
    State.Keeps.effect (fun _ _ => State.Keeps.perform) h

/-- Settles O54: host memory is changed by writes into its canonical form alone, and an entry comes into use only by STATION_ATTACH with a
key that no entry has. -/
theorem stepKeepsMemoryFormAndStationKeys : Obligations.StepKeepsMemoryFormAndStationKeys :=
  ⟨fun _ _ h hs => (State.Keeps.step hs).mem h, fun _ _ h hs => (State.Keeps.step hs).keys h⟩

/-- Settles O55: an entry joins its queue with its notice pending and leaves it with its notice, and a freed entry leaves it. -/
theorem stepKeepsNoticeQueues : Obligations.StepKeepsNoticeQueues := fun _ _ h hs => (State.Keeps.step hs).queues h

/-- Settles O57: without work in hand no event reaches a line but the level of its RXD, and the part comes to rest by a device fault, at OFF
and by a reset. -/
theorem stepKeepsThePartAtRest : Obligations.StepKeepsThePartAtRest := fun _ _ h hs => (State.Keeps.step hs).rest h

/-- Settles O58: indices move modulo the size, and RELEASE and the end of a write move head, tail and written-unreleased together. -/
theorem stepKeepsRingIndices : Obligations.StepKeepsRingIndices := fun _ _ h hs => (State.Keeps.step hs).rings h

/-- Settles O59: the count moves with the slot that a record is taken into and freed from, and a ring goes only when none is in flight. -/
theorem stepKeepsInFlightCounts : Obligations.StepKeepsInFlightCounts := fun _ _ h hs =>
  ⟨(State.Keeps.step hs).rest h.1, (State.Keeps.step hs).inFlight h.1 h.2⟩

end Sys2Proof.Machine

/-! # What a step is made of in the statements' terms: where a command leads, the station table by its keys, bytes written, and faults

The layer that the statements about single commands share: a command leads to the units' acts after its effect; an entry is found by its line
and address alone; what a write leaves of host memory; and what a device fault leaves of the whole part. -/

namespace Sys2Proof.Machine

open Sys2Proof.Claims

/-! ## Where a command leads -/

/-- A command whose effect is `u` leads to what the units make of `u`. -/
theorem leads_of_eq {i : Instr} {s u v : State} (hexec : exec i s = .next v.react) (hv : v = u) :
    ∃ t, exec i s = .next t ∧ AfterUnits u t := by
  subst hv
  exact ⟨_, hexec, .react v⟩

/-- A command that leaves the part with no work in hand leads to its effect. -/
theorem next_of_not_working {i : Instr} {s u v : State} (hexec : exec i s = .next v.react) (hv : v = u) (hw : u.working = false) :
    exec i s = .next u := by
  rw [hexec, hv, State.react_of_not_working hw]

theorem works_iff (s : State) : Works s ↔ s.working = true := by simp [Works, State.working]

/-! ## Entries by their keys (R18) -/

/-- The key of the entry with an index. -/
def State.keyAt (s : State) (e : EntryId) : Option (LineId × Nat) := (s.station e).map fun x => (x.line, x.addr)

theorem State.entryHasKey_eq (s : State) (l : LineId) (a : Nat) (e : EntryId) : s.entryHasKey l a e = (s.keyAt e == some (l, a)) := by
  unfold State.entryHasKey State.keyAt
  cases s.station e with
  | none => rfl
  | some x =>
    rw [Bool.eq_iff_iff]
    simp

/-- Entries are found by their keys alone. -/
theorem State.lookup_congr {s t : State} (h : ∀ e, t.keyAt e = s.keyAt e) (l : LineId) (a : Nat) : t.lookup l a = s.lookup l a := by
  unfold State.lookup
  congr 1
  funext e
  rw [State.entryHasKey_eq, State.entryHasKey_eq, h]

theorem State.lookup_eq_none {s : State} {l : LineId} {a : Nat} :
    s.lookup l a = none ↔ ∀ e, ∀ x ∈ s.station e, ¬ (x.line = l ∧ x.addr = a) := by
  simp only [State.lookup, firstFin, List.find?_eq_none, State.entryHasKey_eq, State.keyAt, List.mem_finRange, true_implies, beq_iff_eq,
    Option.map_eq_some_iff, Prod.ext_iff, Option.mem_def, not_exists, not_and]

/-- With one entry per key, the entry that is found is the one with the key. -/
theorem State.lookup_eq_some {s : State} (hk : s.KeysOk) {l : LineId} {a : Nat} {e : EntryId} :
    s.lookup l a = some e ↔ ∃ x ∈ s.station e, x.line = l ∧ x.addr = a := by
  constructor
  · exact fun h => State.lookup_some h
  · rintro ⟨x, hx, rfl, rfl⟩
    exact State.lookup_of_station hk hx

theorem State.keyed_of_lookup {s : State} {l : LineId} {a : Nat} {e : EntryId} (h : s.lookup l a = some e) : s.keyed l a = s.station e := by
  simp [State.keyed, h]

theorem State.keyed_of_station {s : State} (hk : s.KeysOk) {e : EntryId} {x : Station} (hx : s.station e = some x) :
    s.keyed x.line x.addr = some x := by
  rw [State.keyed_of_lookup (State.lookup_of_station hk hx), hx]

theorem State.keyed_eq_none {s : State} {l : LineId} {a : Nat} : s.keyed l a = none ↔ s.lookup l a = none := by
  unfold State.keyed
  cases h : s.lookup l a with
  | none => simp
  | some e =>
    obtain ⟨x, hx, -⟩ := State.lookup_some h
    simp [Option.mem_def.mp hx]

/-! ## Bytes written (R91, R96, R97) -/

theorem written_memWrite (m : List Host.Cell) (a : Nat) (bs : List Byte) : Written m (memWrite m a bs) a bs :=
  ⟨fun k hk => by rw [memRead_memWrite_inside m a bs k hk, List.getElem?_eq_getElem hk],
    fun b hb => memRead_memWrite_outside m a bs b hb⟩

theorem partlyWritten_memWriteMasked (m : List Host.Cell) (a : Nat) (bs : List Byte) (landed : List Bool) :
    PartlyWritten m (memWriteMasked m a bs landed) a bs landed :=
  ⟨fun k hk => by rw [memRead_memWriteMasked_inside m a bs landed k hk, List.getElem?_eq_getElem hk],
    fun b hb => memRead_memWriteMasked_outside m a bs landed b hb⟩

/-! ## Writes cut off (R62, R176, R178) -/

/-- An access cut off writes nothing but the bytes of writes in progress. -/
structure State.CutsOff (s t : State) : Prop where
  same : t = { s with hostMem := t.hostMem, choices := t.choices }
  mem : ∀ a, ¬ BeingWritten s a → memRead t.hostMem a = memRead s.hostMem a

theorem State.CutsOff.refl (s : State) : s.CutsOff s := ⟨rfl, fun _ _ => rfl⟩

theorem State.CutsOff.beingWritten {s t : State} (h : s.CutsOff t) (a : Nat) : BeingWritten t a ↔ BeingWritten s a := by
  rw [h.same]
  exact Iff.rfl

theorem State.CutsOff.station {s t : State} (h : s.CutsOff t) (e : EntryId) : t.station e = s.station e := by rw [h.same]; rfl

theorem State.CutsOff.line {s t : State} (h : s.CutsOff t) (l : LineId) : t.line l = s.line l := by rw [h.same]; rfl

theorem State.CutsOff.pending {s t : State} (h : s.CutsOff t) : t.pending = s.pending := by rw [h.same]

theorem State.CutsOff.trans {s t u : State} (h : s.CutsOff t) (k : t.CutsOff u) : s.CutsOff u :=
  ⟨by rw [k.same, h.same], fun a ha => (k.mem a (mt (h.beingWritten a).mp ha)).trans (h.mem a ha)⟩

theorem State.CutsOff.foldl {α : Type} {f : State → α → State} (h : ∀ (s : State) a, s.CutsOff (f s a)) (as : List α) (s : State) :
    s.CutsOff (as.foldl f s) := by
  induction as generalizing s with
  | nil => exact .refl s
  | cons a as ih => exact .trans (h s a) (ih (f s a))

theorem State.CutsOff.hostWriteCut {s : State} {a : Nat} {bs : List Byte} (h : ∀ b, InRange a bs.length b → BeingWritten s b) :
    s.CutsOff (s.hostWriteCut a bs) :=
  ⟨rfl, fun b hb => memRead_memWriteMasked_outside _ _ _ _ _ fun hr => hb (h b hr)⟩

theorem Slot.storeCount_le (x : Slot) : (x.response.take x.storeCount).length = x.storeCount := by
  simp [Slot.storeCount]

theorem State.CutsOff.cutStore {s : State} {l : LineId} {i : SlotId} {x : Slot} (hx : s.slot l i = some x) : s.CutsOff (s.cutStore x) := by
  unfold State.cutStore
  split
  · next hst => exact .hostWriteCut fun b hb => .inl ⟨l, i, x, hx, hst, x.storeCount_le ▸ hb⟩
  · exact .refl s

theorem State.CutsOff.cutLine (s : State) (l : LineId) : s.CutsOff (s.cutLine l) := by
  unfold State.cutLine
  extract_lets t
  have ht : s.CutsOff t := .foldl (fun u i => by
    split
    · next hx => exact .cutStore hx
    · exact .refl u) _ s
  refine ht.trans ?_
  split
  · next d hd =>
    split
    · next b hb hst => exact .hostWriteCut fun a ha => .inr (.inl ⟨l, d, hd, b, hb, hst, ha⟩)
    · exact .refl t
  · exact .refl t

theorem State.CutsOff.cutReport (s : State) : s.CutsOff s.cutReport := by
  unfold State.cutReport
  split
  · next c hp hc => exact .hostWriteCut fun a ha => .inr (.inr (.inl ⟨hp, c, hc, ha⟩))
  · exact .refl s

theorem State.CutsOff.cutCompletion (s : State) (r : CRingId) : s.CutsOff (s.cutCompletion r) := by
  unfold State.cutCompletion
  split
  · next c hc =>
    split
    · next w hw =>
      refine ⟨rfl, fun a ha => memRead_memWrite_outside _ _ _ _ fun hr => ha (.inr (.inr (.inr ⟨r, c, hc, w, hw, hr.1, ?_⟩)))⟩
      have := List.length_take_le 15 w.bytes
      omega
    · exact .refl s
  · exact .refl s

theorem State.CutsOff.cutWrites (s : State) : s.CutsOff s.cutWrites :=
  .trans (.foldl State.CutsOff.cutLine (List.finRange 8) s)
    (.trans (.cutReport _) (.foldl State.CutsOff.cutCompletion (List.finRange 4) _))

/-! ## The device fault (R26, R176) -/

/-- An attempt in progress on line `l` is addressed to entry `e`. -/
def State.attemptAt (s : State) (l : LineId) (e : EntryId) : Prop := ∃ a ∈ (s.line l).attempt, s.lookup l a.addr = some e

theorem State.CutsOff.attemptAt {s t : State} (h : s.CutsOff t) (l : LineId) (e : EntryId) : t.attemptAt l e ↔ s.attemptAt l e := by
  rw [h.same]
  exact Iff.rfl

/-- `t` is `s` with sync-needed set of the entries that attempts of the given lines are addressed to. -/
structure State.Abandons (ls : List LineId) (s t : State) : Prop where
  same : t = { s with stations := t.stations }
  free : ∀ e, s.station e = none → t.station e = none
  used : ∀ e, ∀ x ∈ s.station e, ∃ y ∈ t.station e, y = { x with syncNeeded := y.syncNeeded }
    ∧ (y.syncNeeded = true ↔ x.syncNeeded = true ∨ ∃ l ∈ ls, s.attemptAt l e)

theorem State.Abandons.keyAt {ls : List LineId} {s t : State} (h : State.Abandons ls s t) (e : EntryId) : t.keyAt e = s.keyAt e := by
  unfold State.keyAt
  cases hx : s.station e with
  | none => rw [h.free e hx]
  | some x =>
    obtain ⟨y, hy, heq, -⟩ := h.used e x hx
    rw [Option.mem_def.mp hy, heq]
    rfl

theorem State.Abandons.attemptAt {ls : List LineId} {s t : State} (h : State.Abandons ls s t) (l : LineId) (e : EntryId) :
    t.attemptAt l e ↔ s.attemptAt l e := by
  have hl : t.line l = s.line l := by rw [h.same]; rfl
  simp only [State.attemptAt, hl, State.lookup_congr h.keyAt]

theorem State.Abandons.trans {ks ls : List LineId} {s t u : State} (h : State.Abandons ks s t) (k : State.Abandons ls t u) :
    State.Abandons (ks ++ ls) s u where
  same := by rw [k.same, h.same]
  free e he := k.free e (h.free e he)
  used e x hx := by
    obtain ⟨y, hy, hxy, hsync⟩ := h.used e x hx
    obtain ⟨z, hz, hyz, hsync'⟩ := k.used e y hy
    refine ⟨z, hz, by rw [hyz, hxy], ?_⟩
    simp only [hsync', hsync, h.attemptAt, List.mem_append]
    grind

theorem State.station_modStation (s : State) (e f : EntryId) (g : Station → Station) :
    (s.modStation e g).station f = if f = e then (s.station e).map g else s.station f := by
  by_cases h : f = e
  · subst h; simp [State.modStation]
  · simp [State.modStation, h]

theorem State.Abandons.abandonForFault (s : State) (l : LineId) : State.Abandons [l] s (s.abandonForFault l) := by
  have hkeep : (∀ e, ¬ s.attemptAt l e) → State.Abandons [l] s s := fun h =>
    ⟨rfl, fun _ => id, fun e x hx => ⟨x, hx, rfl, by simp [h e]⟩⟩
  unfold State.abandonForFault
  split
  · next a ha =>
    unfold State.abandonStation
    split
    · next hnone =>
      refine hkeep fun e ⟨b, hb, he⟩ => ?_
      rw [ha] at hb
      obtain rfl := Option.some.inj (Option.mem_def.mp hb)
      rw [hnone] at he
      cases he
    · next e he =>
      have hat : ∀ f, s.attemptAt l f ↔ f = e := fun f => by simp [State.attemptAt, ha, he, eq_comm]
      simp only [Bool.false_and, Bool.false_eq_true, if_false]
      refine ⟨rfl, fun f hf => ?_, fun f x hx => ?_⟩
      · rw [State.station_modStation]
        split
        · next e' => rw [← e', hf]; rfl
        · exact hf
      · rw [State.station_modStation]
        split
        · next e' =>
          subst e'
          exact ⟨x.abandoned, by rw [Option.mem_def.mp hx]; rfl, rfl, by simp [Station.abandoned, hat]⟩
        · next e' => exact ⟨x, hx, rfl, by simp [hat, e']⟩
  · next ha =>
    refine hkeep fun e ⟨b, hb, _⟩ => ?_
    rw [ha] at hb
    cases hb

theorem State.Abandons.foldl (ls : List LineId) (s : State) : State.Abandons ls s (ls.foldl State.abandonForFault s) := by
  induction ls generalizing s with
  | nil => exact ⟨rfl, fun _ => id, fun e x hx => ⟨x, hx, rfl, by simp⟩⟩
  | cons l ls ih => exact (State.Abandons.abandonForFault s l).trans (ih _)

/-- What an entry's line has in progress for it is an attempt on that line. -/
theorem attemptTo_iff {s : State} {e : EntryId} {x : Station} (hx : s.station e = some x) :
    AttemptTo s e x ↔ ∃ l ∈ List.finRange 8, s.attemptAt l e := by
  constructor
  · exact fun h => ⟨x.line, List.mem_finRange _, h⟩
  · rintro ⟨l, -, a, ha, he⟩
    obtain ⟨y, hy, rfl, -⟩ := State.lookup_some he
    rw [hx] at hy
    obtain rfl := Option.some.inj (Option.mem_def.mp hy)
    exact ⟨a, ha, he⟩

theorem Admin.deviceFaulted_cases (a : Admin) :
    if a.phase = .waiting then a.deviceFaulted = a else a.deviceFaulted.phase = .idle := by
  obtain ⟨phase, command, requested, read⟩ := a
  cases phase <;> rfl

/-- A device fault leaves of the part what R176 says. -/
theorem faultedFrom_deviceFault (s : State) (code : FaultCode) : FaultedFrom s (s.deviceFault code) code := by
  have hcut := State.CutsOff.cutWrites s
  have habandons : State.Abandons (List.finRange 8) s.cutWrites s.faultBase := State.Abandons.foldl _ _
  have hbase : s.faultBase = { s with
      stations := s.faultBase.stations, hostMem := s.cutWrites.hostMem, choices := s.cutWrites.choices } := by
    rw [habandons.same, hcut.same]
  have hfault := State.deviceFault_eq s code
  have hlines : s.faultBase.lines = s.lines := by rw [hbase]
  have hcrings : s.faultBase.crings = s.crings := by rw [hbase]
  have hadmin : s.faultBase.admin = s.admin := by rw [hbase]
  have hcauses : s.faultBase.intcause = s.intcause := by rw [hbase]
  rw [hlines, hcrings, hadmin, hcauses] at hfault
  have hmem : s.faultBase.hostMem = s.cutWrites.hostMem := by rw [hbase]
  have hline : ∀ l, (s.deviceFault code).line l = (s.line l).deviceFaulted := fun l => by
    rw [hfault]; exact vget_vmap _ _ _
  generalize s.faultBase = b at *
  generalize s.deviceFault code = t at *
  subst hfault
  exact
    { device := ⟨rfl, rfl, rfl, rfl⟩
      kept := by rw [hbase]; exact ⟨rfl, rfl, rfl, rfl, rfl, rfl, rfl⟩
      rings := by rw [hbase]; exact ⟨fun _ => rfl, rfl⟩
      crings := fun r => vget_vmap _ _ _
      lines := fun l => by rw [hline l]; exact ⟨(s.line l).deviceFaulted_rests, rfl, rfl, rfl, rfl, rfl, rfl, rfl⟩
      freeEntries := fun e he => habandons.free e ((hcut.station e).trans he)
      stations := fun e x hx => by
        obtain ⟨y, hy, hxy, hsync⟩ := habandons.used e x ((hcut.station e).trans hx)
        exact ⟨y, hy, hxy, by rw [hsync, attemptTo_iff hx]; simp only [hcut.attemptAt]⟩
      admin := s.admin.deviceFaulted_cases
      memory := fun a ha => (congrArg (memRead · a) hmem).trans (hcut.mem a ha) }

end Sys2Proof.Machine

/-! # Registers, resets and the device state

The commands of the host (R125 to R127, R142, R147, R171 to R178), the values after a reset and the laws there. -/

namespace Sys2Proof.Machine

open Sys2Proof.Claims

/-! ## The step -/

/-- Settles O1, by the two forms of the queue. -/
theorem stepRunsTheCommandAtTheFront : Obligations.StepRunsTheCommandAtTheFront :=
  ⟨fun _ _ => rfl, fun s h => by simp [step, h, State.tick]⟩

/-! ## Resets (R171, R178) -/

theorem Line.reset_atReset (v : Level) : LineAtReset (Line.reset v) where
  run := ⟨rfl, rfl, rfl, rfl, rfl⟩
  config := rfl
  counters := rfl
  pins := ⟨rfl, rfl, rfl, rfl⟩
  slots _ := vget_replicate _ _
  scanner := ⟨rfl, rfl, rfl, rfl⟩
  notices := ⟨rfl, rfl, rfl⟩
  rest := ⟨rfl, rfl, rfl, rfl⟩

theorem Line.reset_rxd (v : Level) : (Line.reset v).pins.rxd = v := rfl

/-- The reset values, whatever the levels of the RXD inputs are. -/
theorem atReset_of_lines {cause : ResetCause} {t : State} (h : t = { State.reset with
    resetCause := cause, lines := t.lines, hostMem := t.hostMem, choices := t.choices, pending := t.pending })
    (hl : ∀ l, ∃ v, t.line l = Line.reset v) : AtReset cause t where
  device := by rw [h]; exact ⟨rfl, rfl, rfl, rfl⟩
  codes := by rw [h]; exact ⟨rfl, rfl, rfl⟩
  causes := by rw [h]; exact ⟨rfl, rfl⟩
  rings := by rw [h]; exact ⟨fun _ => vget_replicate _ _, rfl, fun _ => vget_replicate _ _⟩
  admin := by rw [h]; exact ⟨rfl, rfl⟩
  lines l := by
    obtain ⟨v, hv⟩ := hl l
    rw [hv]
    exact Line.reset_atReset v
  stations := by rw [h]; exact fun _ => vget_replicate _ _
  time := by rw [h]; rfl

theorem State.resetAll_line (s : State) (cause : ResetCause) (l : LineId) :
    (s.resetAll cause).line l = Line.reset (s.line l).pins.rxd := by
  have hcut := (State.CutsOff.cutWrites s).line l
  rw [State.resetAll_eq]
  generalize s.cutWrites = u at *
  rw [← hcut]
  exact vget_vmap _ _ _

theorem State.resetAll_hostMem (s : State) (cause : ResetCause) : (s.resetAll cause).hostMem = s.cutWrites.hostMem := by
  rw [State.resetAll_eq]

theorem State.resetAll_pending (s : State) (cause : ResetCause) : (s.resetAll cause).pending = s.pending := by
  have hcut := (State.CutsOff.cutWrites s).pending
  have heq := s.resetAll_eq cause
  generalize s.resetAll cause = t at *
  generalize s.cutWrites = u at *
  rw [heq, ← hcut]

theorem State.resetAll_atReset (s : State) (cause : ResetCause) : AtReset cause (s.resetAll cause) := by
  have hline := s.resetAll_line cause
  have heq := s.resetAll_eq cause
  generalize s.resetAll cause = t at *
  generalize s.cutWrites = u at heq
  subst heq
  exact atReset_of_lines rfl fun l => ⟨_, hline l⟩

theorem State.reset_line (l : LineId) : State.reset.line l = Line.reset .mark := vget_replicate _ _

theorem State.resetAll_hard (s : State) :
    exec .hardReset s = .next { s.resetAll .power with resetCause := .hard } := by
  have heq := s.resetAll_eq .power
  have heq' := s.resetAll_eq .hard
  show Host.Outcome.next (s.resetAll .hard) = _
  generalize s.resetAll .power = t at *
  generalize s.resetAll .hard = t' at *
  generalize s.cutWrites = u at *
  rw [heq, heq']

/-- DEVID by its fields, whatever the revision code (section 11.5). -/
theorem devidWord_fields : devidWord.extractLsb' 0 16 = 0x4808#16 ∧ devidWord.extractLsb' 24 4 = 8#4 ∧ devidWord.extractLsb' 28 4 = 0#4 := by
  unfold devidWord
  generalize Config.revisionCode = v
  revert v
  decide

/-- Settles O7: both resets put every block at its reset value, and the accesses in progress are all that host memory sees of them. -/
theorem resetsGiveEveryBlockItsResetValue : Obligations.ResetsGiveEveryBlockItsResetValue := by
  refine ⟨fun s => ⟨s.resetAll .power, rfl, s.resetAll_hard, s.resetAll_atReset _, s.resetAll_pending _, fun l => ?_, fun a ha => ?_⟩, ?_, ?_⟩
  · rw [s.resetAll_line, Line.reset_rxd]
  · rw [s.resetAll_hostMem]
    exact (State.CutsOff.cutWrites s).mem a ha
  · exact atReset_of_lines rfl fun l => ⟨_, State.reset_line l⟩
  · exact ⟨rfl, rfl, rfl, rfl, rfl, rfl, rfl, devidWord_fields.1, devidWord_fields.2.1⟩

/-- A line at reset keeps the laws of a line. -/
theorem Line.reset_ok (v : Level) : (Line.reset v).Ok := by
  refine ⟨by simp [Line.reset], by simp [Line.reset], by simp [Line.reset, Pins.quiet], ?_, by simp [Line.reset], by simp [Line.reset],
    fun i y hy => ?_, by simp [Line.reset], by simp [Line.reset, Line.inService]⟩
  · simp [Line.reset, Pins.quiet, Line.exchanging]
  · simp [Line.slot, Line.reset] at hy

/-- Settles O53: no line, ring, entry or write has anything in hand right after reset. -/
theorem lawsHoldAtReset : Obligations.LawsHoldAtReset := by
  have hring : ∀ r, State.reset.ring r = none := fun r => vget_replicate _ _
  have hcring : ∀ r, State.reset.cring r = none := fun r => vget_replicate _ _
  have hstation : ∀ e, State.reset.station e = none := fun e => vget_replicate _ _
  have hw : State.reset.working = false := rfl
  refine ⟨rfl, ⟨fun e x hx => ?_, fun e f x hx => ?_⟩, fun l => ?_, ⟨fun r x hx => ?_, fun r c hc => ?_, fun p hp => ?_⟩,
    fun l => ?_, fun l a ha => ?_, fun l => ?_, fun _ => ⟨fun l => ?_, fun r c hc => ?_, fun _ => ⟨hring, hcring, rfl, hstation, rfl⟩⟩,
    fun h => ?_, fun h => ?_⟩
  · rw [hstation] at hx; cases hx
  · rw [hstation] at hx; cases hx
  · rw [State.reset_line]
    simp [Line.reset, hstation]
  · rw [hring] at hx; cases hx
  · rw [hcring] at hc; cases hc
  · cases hp
  · rw [State.reset_line]
    exact Line.reset_ok _
  · rw [State.reset_line] at ha
    cases ha
  · rw [State.reset_line]
    simp [Line.reset, Scanner.reset, Scanner.Ok]
  · rw [State.reset_line]
    exact Line.reset_rests _
  · rw [hcring] at hc; cases hc
  · rw [hw] at h; cases h
  · rw [hw] at h; cases h

/-! ## INT_ENABLE, INTCAUSE and INTR (R147, R149) -/

theorem State.ringAsserts_iff (s : State) (r : CRingId) :
    s.ringAsserts r = true ↔ s.intcause.getLsbD r.val = true ∧ ∃ c ∈ s.cring r, c.intEnable = true := by
  unfold State.ringAsserts State.causeSet State.cring
  cases vget s.crings r <;> simp

theorem State.intr_iff (s : State) : s.intr = true ↔ s.intEnable = true ∧ (s.intcause.getLsbD 4 = true ∨ s.intcause.getLsbD 5 = true
    ∨ ∃ r : CRingId, s.intcause.getLsbD r.val = true ∧ ∃ c ∈ s.cring r, c.intEnable = true) := by
  simp only [State.intr, Bool.and_eq_true, Bool.or_eq_true, List.any_eq_true, List.mem_finRange, true_and, State.ringAsserts_iff, or_assoc]
  rfl

/-- Settles O10. -/
theorem intEnableAndIntcauseWrites : Obligations.IntEnableAndIntcauseWrites := by
  refine fun s => ⟨fun v => leads_of_eq rfl rfl, fun v => ?_, s.intr_iff⟩
  obtain ⟨t, ht, hu⟩ := leads_of_eq (i := .intcause v) (s := s) rfl rfl
  refine ⟨s.writeIntcause v, t, ht, hu, rfl, fun k hk => ?_⟩
  simp [State.writeIntcause, hk]

/-! ## The registers (R171, section 11.5) -/

theorem toNat_append_add {m n : Nat} (x : BitVec m) (y : BitVec n) : (x ++ y).toNat = x.toNat * 2 ^ n + y.toNat := by
  rw [BitVec.toNat_append, ← Nat.shiftLeft_add_eq_or_of_lt y.isLt, Nat.shiftLeft_eq]

theorem devstatWord_fields (p c : BitVec 2) (f d : BitVec 3) :
    ((0#18 : BitVec 18) ++ p ++ (0#1 : BitVec 1) ++ f ++ (0#2 : BitVec 2) ++ c ++ (0#1 : BitVec 1) ++ d : BitVec 32)
      = BitVec.ofNat 32 (d.toNat + 16 * c.toNat + 256 * f.toNat + 4096 * p.toNat) := by
  have hp := p.isLt
  have hc := c.isLt
  have hf := f.isLt
  have hd := d.isLt
  apply BitVec.eq_of_toNat_eq
  simp only [toNat_append_add, BitVec.toNat_ofNat]
  omega

theorem DeviceState.code_toNat (d : DeviceState) :
    d.code.toNat = match d with | .off => 0 | .loading => 1 | .running => 2 | .disabling => 3 | .faulted => 4 := by cases d <;> rfl

theorem ResetCause.code_toNat (c : ResetCause) :
    c.code.toNat = match c with | .power => 0 | .hard => 1 | .disable => 2 | .faultClear => 3 := by cases c <;> rfl

theorem FaultCode.code_toNat (c : FaultCode) : c.code.toNat = match c with
    | .none => 0 | .bootRead => 1 | .badBoot => 2 | .ringRead => 3 | .poolRead => 4 | .compWrite => 5 := by cases c <;> rfl

theorem PostError.code_toNat (e : PostError) :
    e.code.toNat = match e with | .none => 0 | .notRunning => 1 | .noRing => 2 | .badIndex => 3 := by cases e <;> rfl

theorem devctlWord_getLsbD (s : State) (k : Nat) :
    s.devctlWord.getLsbD k = ((k == 0 && s.enable) || (k == 1 && s.intEnable)) := by
  unfold State.devctlWord
  match k with
  | 0 => cases s.enable <;> cases s.intEnable <;> rfl
  | 1 => cases s.enable <;> cases s.intEnable <;> rfl
  | k + 2 =>
    rw [BitVec.getLsbD_append, BitVec.getLsbD_append, if_neg (by omega), if_neg (by omega)]
    simp

theorem bootAddr_halves (a : Addr) : (a.extractLsb' 32 32 : BitVec 32) ++ (a.extractLsb' 0 32 : BitVec 32) = a := by
  apply BitVec.eq_of_getLsbD_eq
  intro k hk
  simp only [BitVec.getLsbD_append, BitVec.getLsbD_extractLsb']
  grind

/-- Settles O11, register by register. -/
theorem registerWriteIsItsCommand : Obligations.RegisterWriteIsItsCommand := by
  intro s v
  have hword : s.readReg .devstat = _ := devstatWord_fields s.postError.code s.resetCause.code s.faultCode.code s.device.code
  rw [s.device.code_toNat, s.resetCause.code_toNat, s.faultCode.code_toNat, s.postError.code_toNat] at hword
  refine ⟨fun h => ?_, fun h => ?_, leads_of_eq rfl rfl, leads_of_eq rfl rfl, ?_, rfl, rfl, rfl, devidWord_fields, devctlWord_getLsbD s,
    hword, bootAddr_halves _, rfl, rfl, fun k => ?_⟩
  · have heff : s.writeReg .devctl v = s.resetAll .hard := if_pos h
    have hw : (s.resetAll .hard).working = false := by simp [State.working, (s.resetAll_atReset .hard).device.1]
    exact ⟨s.resetAll .hard, next_of_not_working rfl heff hw, rfl⟩
  · have heff : s.writeReg .devctl v = ({ s with intEnable := v.getLsbD 1 } : State).writeEnable (v.getLsbD 0) :=
      if_neg (h ▸ Bool.false_ne_true)
    exact ⟨_, congrArg (fun u : State => Host.Outcome.next u.react) heff, rfl⟩
  · rintro r (rfl | rfl)
    · exact leads_of_eq rfl rfl
    · exact leads_of_eq rfl rfl
  · show (s.intcause.setWidth 32).getLsbD k = _
    rw [BitVec.getLsbD_setWidth]
    by_cases hk : k < 32
    · simp [hk]
    · simp [hk, BitVec.getLsbD_of_ge s.intcause k (by omega)]

/-! ## ENABLE (R171 to R177) -/

theorem bootAddrOk_iff (a : Addr) : bootAddrOk a = true ↔ a.toNat % 32 = 0 := by
  have := a.isLt
  simp only [bootAddrOk, Bool.and_eq_true, beq_iff_eq, decide_eq_true_eq]
  omega

/-- Settles O8, by device state. -/
theorem enableByDeviceState : Obligations.EnableByDeviceState := by
  refine ⟨fun s hd => ⟨?_, fun h => ?_, fun h => ?_⟩, fun s => ⟨?_, ?_, ?_, ?_⟩⟩
  · have heff : s.writeEnable false = { s with enable := false } := by simp [State.writeEnable, hd]
    exact next_of_not_working rfl heff (by simp [State.working, hd])
  · have heff : s.writeEnable true =
        { s with enable := true, device := .loading, faultCode := .none, loadAddr := some s.bootAddr } := by
      simp [State.writeEnable, hd, State.beginLoad, (bootAddrOk_iff _).mpr h]
    exact next_of_not_working rfl heff rfl
  · have hbad : ¬ bootAddrOk s.bootAddr = true := mt (bootAddrOk_iff _).mp h
    have hfault := faultedFrom_deviceFault
      { s with enable := true, device := .loading, faultCode := .none, loadAddr := some s.bootAddr } .badBoot
    have heff : s.writeEnable true = State.deviceFault
        { s with enable := true, device := .loading, faultCode := .none, loadAddr := some s.bootAddr } .badBoot := by
      simp [State.writeEnable, hd, State.beginLoad, hbad]
    refine ⟨_, next_of_not_working rfl heff (by simp [State.working, hfault.device.1]), ?_⟩
    exact ⟨hfault.device, hfault.kept, hfault.rings, hfault.crings, hfault.lines, hfault.freeEntries, hfault.stations, hfault.admin,
      hfault.memory⟩
  · rintro (hd | hd)
    · exact leads_of_eq rfl (by simp [State.writeEnable, hd])
    · exact leads_of_eq rfl (by simp [State.writeEnable, hd])
  · exact fun hd v => leads_of_eq rfl (by simp [State.writeEnable, hd])
  · intro hd
    have heff : s.writeEnable true = s := by simp [State.writeEnable, hd]
    exact next_of_not_working rfl heff (by simp [State.working, hd])
  · intro h
    have heff : s.writeEnable false =
        ({ s with enable := false } : State).reachOff (if s.device = .faulted then .faultClear else .disable) := by
      rcases h with hd | ⟨hd, he⟩
      · simp [State.writeEnable, hd]
      · simp [State.writeEnable, hd, he]
    refine ⟨_, next_of_not_working rfl heff rfl, rfl, rfl, rfl, rfl, rfl, rfl, rfl, rfl, rfl, rfl, rfl, rfl,
      State.reachOff_ring _ _, rfl, State.reachOff_cring _ _, State.reachOff_station _ _, rfl, fun l => ?_⟩
    rw [State.reachOff_line]
    exact ⟨Line.reset_atReset _, rfl⟩

/-! ## POST (R125 to R127) -/

theorem State.rejectPost_eq (s : State) (e : PostError) : s.rejectPost e = rejected s e := rfl

theorem indexOf_val {n : Nat} {b : Byte} {i : Fin n} (h : b.toNat = i.val) : indexOf n b = some i := by
  simp [indexOf, h]

theorem indexOf_none {n : Nat} {b : Byte} (h : n ≤ b.toNat) : indexOf n b = none := by
  simp [indexOf, Nat.not_lt.mpr h]

theorem State.writePost_ring {s : State} (hd : s.device = .running) {ring : Byte} {r : RingId} (h : ring.toNat = r.val) (tail : Half) :
    s.writePost ring tail = s.postRing r tail.toNat := by
  have hne : ring ≠ 16#8 := by
    rintro rfl
    have := r.isLt
    simp at h
    omega
  simp [State.writePost, hd, hne, indexOf_val h]

theorem State.namedRing_none {s : State} {r : RingId} (h : ∀ x ∈ s.ring r, x.state = .draining) : s.namedRing r = none := by
  unfold State.namedRing
  split
  · next x hx => exact if_pos (h x hx)
  · rfl

theorem State.namedRing_of_ring {s : State} {r : RingId} {x : SubRing} (hx : s.ring r = some x) (h : x.state ≠ .draining) :
    s.namedRing r = some x := by
  simp [State.namedRing, hx, h]

theorem State.station_poolRefilled (s : State) (e : EntryId) : s.poolRefilled.station e =
    (s.station e).map fun x => if x.redelivery = true then { x with nextDue := s.nowMs } else x := vget_vmap _ _ _

/-- Settles O12: the tests of R125 in order, and what an accepted POST replaces. -/
theorem postIsJudgedInOrder : Obligations.PostIsJudgedInOrder := by
  refine ⟨fun s ring tail => ⟨fun hd => ?_, fun hd h => ?_, fun r h hd => ?_⟩, fun s tail hd => ⟨fun hp => ?_, fun p hp => ?_⟩⟩
  · exact leads_of_eq rfl (if_pos hd)
  · have hne : ring ≠ 16#8 := by rintro rfl; simp at h
    exact leads_of_eq rfl (by simp [State.writePost, hd, hne, indexOf_none h.le, State.rejectPost_eq])
  · have heff := State.writePost_ring (s := s) hd h tail
    refine ⟨fun hx => ?_, fun x hx hst hle => ?_, fun x hx hst hlt => ?_⟩
    · exact leads_of_eq rfl (by rw [heff, State.postRing, State.namedRing_none hx]; rfl)
    · refine leads_of_eq rfl ?_
      rw [heff, State.postRing, State.namedRing_of_ring hx hst]
      exact if_neg (Nat.not_lt.mpr hle)
    · refine leads_of_eq rfl ?_
      rw [heff, State.postRing, State.namedRing_of_ring hx hst]
      exact if_pos hlt
  · have heff : s.writePost 16 tail = s.postPool tail.toNat := by simp [State.writePost, hd]
    exact leads_of_eq rfl (by rw [heff, State.postPool, hp]; rfl)
  · have heff : s.writePost 16 tail = s.postPool tail.toNat := by simp [State.writePost, hd]
    rw [State.postPool, Option.mem_def.mp hp] at heff
    refine ⟨fun hle => leads_of_eq rfl (heff.trans (if_neg (Nat.not_lt.mpr hle))), fun hlt => ?_⟩
    replace heff := heff.trans (if_pos hlt)
    dsimp only at heff
    split at heff
    · next hraised =>
      obtain ⟨t, ht, hu⟩ := leads_of_eq (i := .post 16 tail) (s := s) rfl heff
      refine ⟨_, t, ht, hu, rfl, fun e => ?_⟩
      rw [State.station_poolRefilled]
      simp only [hraised.1, hraised.1 ▸ hraised.2, ne_eq, not_false_eq_true, true_and]
      rfl
    · next hraised =>
      obtain ⟨t, ht, hu⟩ := leads_of_eq (i := .post 16 tail) (s := s) rfl heff
      refine ⟨_, t, ht, hu, rfl, fun e => ?_⟩
      simp only [← and_assoc, hraised, false_and, if_false, Option.map_id']
      rfl

/-! ## RELEASE (R142) -/

theorem Line.placeGained_refused (r : CRingId) (x : Line) : x.placeGained r =
    { x with scanner := { x.scanner with refused := x.scanner.refused && !(x.noticeRing == some r) } } := by
  unfold Line.placeGained
  split
  · next c hc =>
    have hring : x.noticeRing = c.noticeRing := by simp [Line.noticeRing, hc]
    by_cases h : c.noticeRing = some r
    · simp [hring, h]
    · have hb : (c.noticeRing == some r) = false := by simp [h]
      rw [if_neg h, hring, hb, Bool.not_false, Bool.and_true]
  · next hc =>
    have hb : (x.noticeRing == some r) = false := by simp [Line.noticeRing, hc]
    rw [hb, Bool.not_false, Bool.and_true]

/-- Settles O13: the tests of R142 in order, and the places given back. -/
theorem releaseGivesPlacesBack : Obligations.ReleaseGivesPlacesBack := by
  refine fun s ring head => ⟨fun hd => leads_of_eq rfl (if_pos hd), fun hd h => ?_, fun r h hd => ⟨fun hc => ?_, fun c hc => ?_⟩, rfl⟩
  · exact leads_of_eq rfl (by simp [State.writeRelease, hd, cringOf, indexOf_none (n := 4) h, State.rejectPost_eq])
  · exact leads_of_eq rfl (by simp [State.writeRelease, hd, cringOf, indexOf_val h, hc, State.rejectPost_eq])
  · intro k
    have heff : s.writeRelease ring head =
        if head.toNat < ringSize c.sizeCode ∧ k ≤ c.written then
          if 0 < k then (s.setCRing r (some { c with head := head.toNat, written := c.written - k })).gainPlace r
          else s.setCRing r (some { c with head := head.toNat, written := c.written - k })
        else s.rejectPost .badIndex := by
      simp only [State.writeRelease, hd, cringOf, indexOf_val h, Option.mem_def.mp hc]
      rfl
    refine ⟨fun hbad => leads_of_eq rfl (heff.trans (if_neg ?_)), fun hlt hle => ?_⟩
    · rintro ⟨h1, h2⟩
      rcases hbad with hbad | hbad
      · exact absurd h1 (Nat.not_lt.mpr hbad)
      · omega
    · replace heff := heff.trans (if_pos ⟨hlt, hle⟩)
      split at heff
      · next hk =>
        obtain ⟨t, ht, hu⟩ := leads_of_eq (i := .release ring head) (s := s) rfl heff
        refine ⟨_, t, ht, hu, rfl, fun l => ?_⟩
        rw [State.line_gainPlace, Line.placeGained_refused]
        simp only [hk, decide_true, Bool.true_and]
        rfl
      · next hk =>
        obtain ⟨t, ht, hu⟩ := leads_of_eq (i := .release ring head) (s := s) rfl heff
        refine ⟨_, t, ht, hu, rfl, fun l => ?_⟩
        simp only [hk, decide_false, Bool.false_and, Bool.not_false, Bool.and_true]
        rfl

end Sys2Proof.Machine

/-! # The judgement of an admin command (R153, R156 to R170)

Each command's tests in their order, with the predicates of the statements, and the state after a taken record. -/

namespace Sys2Proof.Machine

open Sys2Proof.Claims

/-! ## Objects named by a byte -/

theorem indexOf_eq_none {n : Nat} {b : Byte} : indexOf n b = none ↔ n ≤ b.toNat := by
  simp [indexOf]

theorem byte_eq_zero {b : Byte} : b = 0 ↔ b.toNat = 0 := BitVec.toNat_eq

theorem txnRingOf_none {b : Byte} : txnRingOf b = none ↔ b = 0 ∨ 15 < b.toNat := by
  unfold txnRingOf
  split
  · next h => simp [beq_iff_eq.mp h]
  · next h =>
    have hne : b ≠ 0 := fun e => h (beq_iff_eq.mpr e)
    rw [indexOf_eq_none, Nat.succ_le_iff, or_iff_right hne]

theorem laterCringOf_none {b : Byte} : laterCringOf b = none ↔ b = 0 ∨ 3 < b.toNat := by
  unfold laterCringOf
  split
  · next h => simp [beq_iff_eq.mp h]
  · next h =>
    have hne : b ≠ 0 := fun e => h (beq_iff_eq.mpr e)
    rw [indexOf_eq_none, Nat.succ_le_iff, or_iff_right hne]

theorem laterCringOf_some {b : Byte} {q : CRingId} (h : laterCringOf b = some q) : q ≠ 0 ∧ b.toNat = q.val := by
  unfold laterCringOf at h
  split at h
  · cases h
  · next hb =>
    have e := indexOf_some.mp h
    refine ⟨fun e0 => hb ?_, e⟩
    subst e0
    simpa [BitVec.toNat_eq] using e

/-- What a byte names is one object, where it names any. -/
theorem forall_named {n : Nat} {b : Byte} {i : Fin n} (h : b.toNat = i.val) {p : Fin n → Prop} :
    (∀ j : Fin n, j.val = b.toNat → p j) ↔ p i :=
  ⟨fun k => k i h.symm, fun k _ hj => Fin.ext (hj.trans h) ▸ k⟩

theorem exists_named {n : Nat} {b : Byte} {i : Fin n} (h : b.toNat = i.val) {p : Fin n → Prop} :
    (∃ j : Fin n, j.val = b.toNat ∧ p j) ↔ p i :=
  ⟨fun ⟨_, hj, k⟩ => Fin.ext (hj.trans h) ▸ k, fun k => ⟨i, h.symm, k⟩⟩

theorem noEntry_iff {s : State} {line addr : Byte} {l : LineId} (h : line.toNat = l.val) :
    NoEntry s line addr ↔ s.lookup l addr.toNat = none := by
  simp only [NoEntry, State.lookup_eq_none, h, Fin.ext_iff]

theorem State.namedRing_eq_none {s : State} {r : RingId} : s.namedRing r = none ↔ ∀ x ∈ s.ring r, x.state = .draining := by
  unfold State.namedRing
  split
  · next x hx => simp [hx]
  · next hx => simp [hx]

/-! ## The parameters -/

theorem ringGeometryOk_iff {base : Addr} {width lo hi : Nat} (hpos : 0 < width) {sizeCode : Byte} :
    ringGeometryOk base width lo hi sizeCode = true ↔ ¬ Misplaced base width lo hi sizeCode := by
  have : 0 < width * 2 ^ sizeCode.toNat := Nat.mul_pos hpos (Nat.two_pow_pos _)
  simp only [ringGeometryOk, fitsBelowTop, Misplaced, Bool.and_eq_true, beq_iff_eq, decide_eq_true_eq]
  omega

theorem not_ringGeometryOk {base : Addr} {width lo hi : Nat} (hpos : 0 < width) {sizeCode : Byte} :
    (!ringGeometryOk base width lo hi sizeCode) = true ↔ Misplaced base width lo hi sizeCode := by
  rw [Bool.not_eq_true', ← Bool.not_eq_true, ringGeometryOk_iff hpos, not_not]

theorem modeOf_none {b : Byte} : modeOf b = none ↔ 1 < b.toNat := by
  unfold modeOf
  simp only [beq_iff_eq, BitVec.toNat_eq]
  split
  · next h => simp [h]
  · next h =>
    split
    · next h' => simp [h']
    · next h' => simp at h h' ⊢; omega

theorem modeOf_some {b : Byte} {m : Mode} : modeOf b = some m → b = if m = .async then 0 else 1 := by
  unfold modeOf
  split
  · next h => rintro ⟨⟩; simpa using h
  · split
    · next h => rintro ⟨⟩; simpa using h
    · simp

theorem parityOf_none {v : Nat} : parityOf v = none ↔ 2 < v := by
  unfold parityOf
  repeat' split
  all_goals simp; omega

theorem parityOf_some {v : Nat} {p : Parity} (h : parityOf v = some p) : (p = .none ↔ v = 0) ∧ v ≤ 2 := by
  unfold parityOf at h
  split at h
  · cases h; simp [*]
  · split at h
    · cases h; simp [*]
    · split at h
      · cases h; simp [*]
      · cases h

theorem noticeRingOf_none {v : Nat} : noticeRingOf v = none ↔ 4 < v := by
  unfold noticeRingOf
  split
  · simp; omega
  · split
    · simp; omega
    · simp; omega

theorem noticeRingOf_some {v : Nat} {n : Option CRingId} (h : noticeRingOf v = some n) :
    (n = none ↔ v = 4) ∧ ∀ q : CRingId, n = some q ↔ q.val = v := by
  unfold noticeRingOf at h
  split at h
  · cases h
    simp [Fin.ext_iff, eq_comm]
    omega
  · split at h
    · next h4 =>
      cases h
      simp [h4]
      omega
    · cases h

theorem rate_lt {m : Mode} {v : Nat} : v < (ratesOf m).length ↔ v ≤ if m = .async then 10 else 5 := by
  cases m <;> simp [ratesOf, asyncRates, clockedRates, Nat.lt_succ_iff]

theorem orDefault_eq (f : LineFields) (bit value dflt : Nat) : orDefault f bit value dflt = fieldOf f bit value dflt := rfl

theorem within_iff {lo hi v : Nat} : within lo hi v = true ↔ lo ≤ v ∧ v ≤ hi := decide_eq_true_iff

theorem resolveConfig_none {f : LineFields} : resolveConfig f = none ↔ BadFields f := by
  unfold resolveConfig
  split
  · next mode parity ring hm hp hr =>
    have hmode := modeOf_some hm
    have hparity := parityOf_some hp
    have hring := mt noticeRingOf_none.mpr (by rw [hr]; exact Option.some_ne_none _)
    have hprobe : orDefault f 11 f.probeInterval.toNat 1000 ≤ 65535 := by
      have := f.probeInterval.isLt
      unfold orDefault
      split <;> omega
    simp only [orDefault_eq] at *
    simp only [Bool.and_eq_true, within_iff, decide_eq_true_eq, rate_lt, Bool.or_eq_true, beq_iff_eq, ite_eq_right_iff, reduceCtorEq, imp_false, BadFields]
    cases mode <;> simp only [hmode, hparity.1, if_true] <;> simp <;> omega
  · next h =>
    simp only [true_iff]
    cases hm : modeOf f.mode with
    | none => simp [BadFields, modeOf_none.mp hm]
    | some m =>
      cases hp : parityOf (orDefault f 0 f.parity.toNat 0) with
      | none => simp [BadFields, ← orDefault_eq, parityOf_none.mp hp]
      | some p =>
        cases hr : noticeRingOf (orDefault f 10 f.noticeRing.toNat 4) with
        | none => simp [BadFields, ← orDefault_eq, noticeRingOf_none.mp hr]
        | some r => exact absurd hr (h m p r hm hp)

theorem resolveConfig_noticeRing {f : LineFields} {c : LineConfig} (h : resolveConfig f = some c) :
    (c.noticeRing = none ↔ noticeField f = 4) ∧ ∀ q : CRingId, c.noticeRing = some q ↔ q.val = noticeField f := by
  unfold resolveConfig at h
  split at h
  · next hr =>
    dsimp only at h
    split at h
    · cases h
      exact noticeRingOf_some hr
    · cases h
  · cases h
/-! ## The order of the tests -/

/-- What a command of a taken record leads to follows the tests of R153 in their order, and is not said where every test passes. -/
structure State.Judged (t : State) (c : AdminCmd) (u : State) : Prop where
  badParam : BadParam c → u = t.adminFail .badParam
  notFound : ¬ BadParam c → NotFound t c → u = t.adminFail .notFound
  wrongState : ¬ BadParam c → ¬ NotFound t c → WrongState t c → u = t.adminFail .wrongState
  inUse : ¬ BadParam c → ¬ NotFound t c → ¬ WrongState t c → InUse t c → u = t.adminFail .inUse
  noRoom : ¬ BadParam c → ¬ NotFound t c → ¬ WrongState t c → ¬ InUse t c → NoRoom t c → u = t.adminFail .noRoom

section
variable {t u : State} {c : AdminCmd}

theorem State.Judged.ofBadParam (hb : BadParam c) : t.Judged c (t.adminFail .badParam) :=
  ⟨fun _ => rfl, fun h => absurd hb h, fun h => absurd hb h, fun h => absurd hb h, fun h => absurd hb h⟩

theorem State.Judged.ofNotFound (hb : ¬ BadParam c) (hf : NotFound t c) : t.Judged c (t.adminFail .notFound) :=
  ⟨fun h => absurd h hb, fun _ _ => rfl, fun _ h => absurd hf h, fun _ h => absurd hf h, fun _ h => absurd hf h⟩

theorem State.Judged.ofWrongState (hb : ¬ BadParam c) (hf : ¬ NotFound t c) (hw : WrongState t c) :
    t.Judged c (t.adminFail .wrongState) :=
  ⟨fun h => absurd h hb, fun _ h => absurd h hf, fun _ _ _ => rfl, fun _ _ h => absurd hw h, fun _ _ h => absurd hw h⟩

theorem State.Judged.ofInUse (hb : ¬ BadParam c) (hf : ¬ NotFound t c) (hw : ¬ WrongState t c) (hi : InUse t c) :
    t.Judged c (t.adminFail .inUse) :=
  ⟨fun h => absurd h hb, fun _ h => absurd h hf, fun _ _ h => absurd h hw, fun _ _ _ _ => rfl, fun _ _ _ h => absurd hi h⟩

theorem State.Judged.ofNoRoom (hb : ¬ BadParam c) (hf : ¬ NotFound t c) (hw : ¬ WrongState t c) (hi : ¬ InUse t c) :
    t.Judged c (t.adminFail .noRoom) :=
  ⟨fun h => absurd h hb, fun _ h => absurd h hf, fun _ _ h => absurd h hw, fun _ _ _ h => absurd h hi, fun _ _ _ _ _ => rfl⟩

theorem State.Judged.ofPassed (hb : ¬ BadParam c) (hf : ¬ NotFound t c) (hw : ¬ WrongState t c) (hi : ¬ InUse t c) (hr : ¬ NoRoom t c) :
    t.Judged c u :=
  ⟨fun h => absurd h hb, fun _ h => absurd h hf, fun _ _ h => absurd h hw, fun _ _ _ h => absurd h hi, fun _ _ _ _ h => absurd h hr⟩

end

/-! ## Submission rings (R156 to R158) -/

theorem State.judged_ringCreate (t : State) (ring sizeCode line cls cring : Byte) (base : Addr) :
    t.Judged (.ringCreate ring sizeCode line cls cring base) (t.adminRingCreate ring sizeCode line cls cring base) := by
  unfold State.adminRingCreate
  split
  · next r l k q hr hl hk hq =>
    have hr0 := mt txnRingOf_none.mpr (by rw [hr]; exact Option.some_ne_none _)
    have hr := (txnRingOf_some hr).2
    have hl := indexOf_some.mp hl
    have hk := indexOf_some.mp hk
    have hq := indexOf_some.mp hq
    split
    · next hg => exact .ofBadParam (.inr (.inr (.inl ((not_ringGeometryOk (by simp)).mp hg))))
    · next hg =>
      have hb : ¬ BadParam (.ringCreate ring sizeCode line cls cring base) := by
        rw [not_ringGeometryOk (by simp)] at hg
        have := l.isLt
        have := k.isLt
        have := q.isLt
        simp only [BadParam, ← or_assoc, hr0, hg, false_or]
        omega
      have hfound : NotFound t (.ringCreate ring sizeCode line cls cring base) ↔ t.cring q = none := forall_named hq
      split
      · next h => exact .ofNotFound hb (hfound.mpr (by simpa using h))
      · next h =>
        have hf := mt hfound.mp (by simpa using h)
        have hwrong : WrongState t (.ringCreate ring sizeCode line cls cring base) ↔ (t.line l).config = none := forall_named hl
        split
        · next h => exact .ofWrongState hb hf (hwrong.mpr (by simpa using h))
        · next h =>
          have hw := mt hwrong.mp (by simpa using h)
          have huse : InUse t (.ringCreate ring sizeCode line cls cring base) ↔ t.ring r ≠ none := exists_named hr
          split
          · next h => exact .ofInUse hb hf hw (huse.mpr (by simpa [Option.isSome_iff_ne_none] using h))
          · next h => exact .ofPassed hb hf hw (mt huse.mp (by simpa using h)) id
  · next h =>
    refine .ofBadParam ?_
    cases hr : txnRingOf ring with
    | none => exact (txnRingOf_none.mp hr).imp_right .inl
    | some r =>
      cases hl : lineOf line with
      | none => simp [BadParam, Nat.lt_of_succ_le (indexOf_eq_none.mp hl)]
      | some l =>
        cases hk : classOf cls with
        | none => simp [BadParam, Nat.lt_of_succ_le (indexOf_eq_none.mp hk)]
        | some k =>
          cases hq : cringOf cring with
          | none => simp [BadParam, Nat.lt_of_succ_le (indexOf_eq_none.mp hq)]
          | some q => exact (h r l k q hr hl hk hq).elim

/-- The byte names ring `r`, and the ring is found where its context is. -/
theorem State.ringNotFound_iff {t : State} {ring : Byte} {r : RingId} (h : ring.toNat = r.val) :
    RingNotFound t ring ↔ t.namedRing r = none := (forall_named h).trans State.namedRing_eq_none.symm

theorem State.namedRing_state {t : State} {ring : Byte} {r : RingId} (h : ring.toNat = r.val) {x : SubRing} (hx : t.namedRing r = some x)
    {p : SubRing → Prop} : (∃ r : RingId, r.val = ring.toNat ∧ ∃ x ∈ t.ring r, p x) ↔ p x := by
  rw [exists_named h]
  have hr := (State.namedRing_some hx).1
  rw [hr]
  simp

theorem State.judged_ringPause (t : State) (ring : Byte) : t.Judged (.ringPause ring) (t.adminRingPause ring) := by
  unfold State.adminRingPause
  split
  · next hr => exact .ofBadParam (txnRingOf_none.mp hr)
  · next r hr =>
    have hb : ¬ BadParam (.ringPause ring) := mt txnRingOf_none.mpr (by rw [hr]; exact Option.some_ne_none _)
    have hr := (txnRingOf_some hr).2
    have hfound : NotFound t (.ringPause ring) ↔ t.namedRing r = none := State.ringNotFound_iff hr
    split
    · next h => exact .ofNotFound hb (hfound.mpr h)
    · next x h =>
      have hf := mt hfound.mp (by rw [h]; exact Option.some_ne_none _)
      have hwrong : WrongState t (.ringPause ring) ↔ x.state = .paused := State.namedRing_state hr h
      split
      · next h => exact .ofWrongState hb hf (hwrong.mpr h)
      · next h => exact .ofPassed hb hf (mt hwrong.mp h) id id

theorem resumeClassOf_none {b : Byte} : resumeClassOf b = none ↔ 3 < b.toNat ∧ b ≠ 0xFF := by
  unfold resumeClassOf
  split
  · next h => simp [beq_iff_eq.mp h]
  · next h =>
    have hne : b ≠ 0xFF := fun e => h (beq_iff_eq.mpr e)
    rw [Option.map_eq_none_iff, classOf, indexOf_eq_none, Nat.succ_le_iff, and_iff_left hne]

theorem State.judged_ringResume (t : State) (ring cls : Byte) : t.Judged (.ringResume ring cls) (t.adminRingResume ring cls) := by
  unfold State.adminRingResume
  split
  · next r c hr hc =>
    have hr0 := mt txnRingOf_none.mpr (by rw [hr]; exact Option.some_ne_none _)
    have hc := mt resumeClassOf_none.mpr (by rw [hc]; exact Option.some_ne_none _)
    have hb : ¬ BadParam (.ringResume ring cls) := by
      simp only [BadParam, hr0, hc, or_false, not_false_eq_true]
    have hr := (txnRingOf_some hr).2
    have hfound : NotFound t (.ringResume ring cls) ↔ t.namedRing r = none := State.ringNotFound_iff hr
    split
    · next h => exact .ofNotFound hb (hfound.mpr h)
    · next x h =>
      have hf := mt hfound.mp (by rw [h]; exact Option.some_ne_none _)
      have hwrong : WrongState t (.ringResume ring cls) ↔ x.state = .active := State.namedRing_state hr h
      split
      · next h => exact .ofWrongState hb hf (hwrong.mpr h)
      · next h => exact .ofPassed hb hf (mt hwrong.mp h) id id
  · next h =>
    refine .ofBadParam ?_
    cases hr : txnRingOf ring with
    | none => exact (txnRingOf_none.mp hr).imp_right .inl
    | some r =>
      cases hc : resumeClassOf cls with
      | none => exact .inr (.inr (resumeClassOf_none.mp hc))
      | some c => exact (h r c hr hc).elim

theorem State.judged_ringDelete (t : State) (ring mode : Byte) : t.Judged (.ringDelete ring mode) (t.adminRingDelete ring mode) := by
  unfold State.adminRingDelete
  split
  · next hr => exact .ofBadParam ((txnRingOf_none.mp hr).imp_right .inl)
  · next r hr =>
    have hr0 := mt txnRingOf_none.mpr (by rw [hr]; exact Option.some_ne_none _)
    have hr := (txnRingOf_some hr).2
    split
    · next h => exact .ofBadParam (.inr (.inr h))
    · next h =>
      have hb : ¬ BadParam (.ringDelete ring mode) := by simp only [BadParam, hr0, h, or_false, not_false_eq_true]
      have hfound : NotFound t (.ringDelete ring mode) ↔ t.namedRing r = none := State.ringNotFound_iff hr
      split
      · next h => exact .ofNotFound hb (hfound.mpr h)
      · next x h => exact .ofPassed hb (mt hfound.mp (by rw [h]; exact Option.some_ne_none _)) id id id

/-! ## Completion rings and the pool (R159 to R163) -/

theorem State.judged_cringCreate (t : State) (ring sizeCode n : Byte) (ie : Bool) (time : Half) (base : Addr) :
    t.Judged (.cringCreate ring sizeCode n ie time base) (t.adminCringCreate ring sizeCode n ie time base) := by
  unfold State.adminCringCreate
  split
  · next hr => exact .ofBadParam ((laterCringOf_none.mp hr).imp_right .inl)
  · next r hr =>
    have hr0 := mt laterCringOf_none.mpr (by rw [hr]; exact Option.some_ne_none _)
    have hr := (laterCringOf_some hr).2
    have hbad : BadParam (.cringCreate ring sizeCode n ie time base) ↔ (!ringGeometryOk base 16 3 13 sizeCode || n == 0) = true := by
      rw [Bool.or_eq_true, not_ringGeometryOk (by simp), beq_iff_eq]
      simp only [BadParam, ← or_assoc, hr0, false_or]
    split
    · next h => exact .ofBadParam (hbad.mpr h)
    · next h =>
      have hb := mt hbad.mp h
      have huse : InUse t (.cringCreate ring sizeCode n ie time base) ↔ t.cring r ≠ none := exists_named hr
      split
      · next h => exact .ofInUse hb id id (huse.mpr (Option.isSome_iff_ne_none.mp h))
      · next h => exact .ofPassed hb id id (mt huse.mp (by simpa using h)) id

theorem State.judged_cringPolicy (t : State) (ring n : Byte) (ie : Bool) (time : Half) :
    t.Judged (.cringPolicy ring n ie time) (t.adminCringPolicy ring n ie time) := by
  unfold State.adminCringPolicy
  split
  · next hr => exact .ofBadParam (.inl (indexOf_eq_none.mp hr))
  · next r hr =>
    have hr := indexOf_some.mp hr
    split
    · next h => exact .ofBadParam (.inr h)
    · next h =>
      have hb : ¬ BadParam (.cringPolicy ring n ie time) := not_or.mpr ⟨by omega, h⟩
      have hfound : NotFound t (.cringPolicy ring n ie time) ↔ t.cring r = none := forall_named hr
      split
      · next h => exact .ofNotFound hb (hfound.mpr h)
      · next c h => exact .ofPassed hb (mt hfound.mp (by rw [h]; exact Option.some_ne_none _)) id id id

theorem State.cringNamed_iff (s : State) (q : CRingId) : s.cringNamed q = true ↔
    (∃ r, ∃ x ∈ s.ring r, x.cring = q) ∨ ∃ l, ∃ c ∈ (s.line l).config, c.noticeRing = some q := by
  simp only [State.cringNamed, Bool.or_eq_true, List.any_eq_true, List.mem_finRange, true_and, beq_iff_eq]
  refine or_congr (exists_congr fun r => ?_) (exists_congr fun l => ?_)
  · cases s.ring r <;> simp
  · unfold Line.noticeRing
    cases (s.line l).config <;> simp

theorem State.judged_cringDelete (t : State) (ring : Byte) : t.Judged (.cringDelete ring) (t.adminCringDelete ring) := by
  unfold State.adminCringDelete
  split
  · next hr => exact .ofBadParam (laterCringOf_none.mp hr)
  · next r hr =>
    have hb : ¬ BadParam (.cringDelete ring) := mt laterCringOf_none.mpr (by rw [hr]; exact Option.some_ne_none _)
    have hr := (laterCringOf_some hr).2
    have hfound : NotFound t (.cringDelete ring) ↔ t.cring r = none := forall_named hr
    split
    · next h => exact .ofNotFound hb (hfound.mpr h)
    · next c h =>
      have hf := mt hfound.mp (by rw [h]; exact Option.some_ne_none _)
      have huse : InUse t (.cringDelete ring) ↔ (t.cringNamed r || decide (0 < c.written) || decide (0 < c.reserved)) = true := by
        refine (exists_named hr).trans ?_
        simp only [Bool.or_eq_true, decide_eq_true_eq, State.cringNamed_iff, h, or_assoc, Option.mem_def, Option.some.injEq, exists_eq_left']
      split
      · next h => exact .ofInUse hb hf id (huse.mpr h)
      · next h => exact .ofPassed hb hf id (mt huse.mp h) id

theorem State.judged_poolCreate (t : State) (sizeCode : Byte) (base : Addr) :
    t.Judged (.poolCreate sizeCode base) (t.adminPoolCreate sizeCode base) := by
  unfold State.adminPoolCreate
  have hbad : BadParam (.poolCreate sizeCode base) ↔ (!ringGeometryOk base 8 2 10 sizeCode) = true := (not_ringGeometryOk (by simp)).symm
  split
  · next h => exact .ofBadParam (hbad.mpr h)
  · next h =>
    have hb := mt hbad.mp h
    have huse : InUse t (.poolCreate sizeCode base) ↔ t.pool.isSome = true := Option.isSome_iff_ne_none.symm
    split
    · next h => exact .ofInUse hb id id (huse.mpr h)
    · next h => exact .ofPassed hb id id (mt huse.mp h) id

theorem State.poolNeeded_iff (s : State) : s.poolNeeded = true ↔
    (∃ e, ∃ x ∈ s.station e, x.scanPeriod ≠ 0 ∨ x.redelivery = true) ∨ ∃ l, (s.line l).scanner.state = .delivering := by
  simp only [State.poolNeeded, Bool.or_eq_true, List.any_eq_true, List.mem_finRange, true_and, beq_iff_eq]
  refine or_congr (exists_congr fun e => ?_) Iff.rfl
  cases s.station e <;> simp

theorem State.judged_poolDelete (t : State) : t.Judged .poolDelete t.adminPoolDelete := by
  unfold State.adminPoolDelete
  have hfound : NotFound t .poolDelete ↔ t.pool.isNone = true := Option.isNone_iff_eq_none.symm
  have huse : InUse t .poolDelete ↔ t.poolNeeded = true := t.poolNeeded_iff.symm
  split
  · next h => exact .ofNotFound id (hfound.mpr h)
  · next h =>
    have hf := mt hfound.mp h
    split
    · next h => exact .ofInUse id hf id (huse.mpr h)
    · next h => exact .ofPassed id hf id (mt huse.mp h) id

/-! ## Lines (R164 to R166) -/

theorem State.scannedOn_iff (s : State) (l : LineId) : s.scannedOn l = true ↔
    ∃ e, ∃ x ∈ s.station e, x.line = l ∧ (x.scanPeriod ≠ 0 ∨ x.redelivery = true) := by
  simp only [State.scannedOn, List.any_eq_true, List.mem_finRange, true_and]
  refine exists_congr fun e => ?_
  cases s.station e <;> simp

theorem State.noticeRingMissing_iff (s : State) (c : LineConfig) : s.noticeRingMissing c = true ↔
    ∃ q, c.noticeRing = some q ∧ s.cring q = none := by
  unfold State.noticeRingMissing
  cases c.noticeRing <;> simp

theorem State.notFound_lineConfig (t : State) {line : Byte} {f : LineFields} {c : LineConfig} (hc : resolveConfig f = some c) :
    NotFound t (.lineConfig line f) ↔ t.noticeRingMissing c = true := by
  simp only [State.noticeRingMissing_iff, (resolveConfig_noticeRing hc).2]
  rfl

theorem State.inUse_lineConfig (t : State) {line : Byte} {l : LineId} {f : LineFields} {c : LineConfig} (hl : line.toNat = l.val)
    (hc : resolveConfig f = some c) : InUse t (.lineConfig line f) ↔ (c.noticeRing.isNone && t.scannedOn l) = true := by
  have hline : ∀ k : LineId, k.val = line.toNat ↔ k = l := fun k => by rw [hl, Fin.ext_iff]
  have hscan : t.scannedOn l = true ↔ ∃ e, ∃ x ∈ t.station e, x.line.val = line.toNat ∧ (x.scanPeriod ≠ 0 ∨ x.redelivery = true) := by
    simp only [State.scannedOn_iff, hline]
  rw [Bool.and_eq_true, Option.isNone_iff_eq_none]
  exact (and_congr (resolveConfig_noticeRing hc).1 hscan).symm

theorem State.judged_lineConfig (t : State) (line : Byte) (f : LineFields) : t.Judged (.lineConfig line f) (t.adminLineConfig line f) := by
  unfold State.adminLineConfig
  split
  · next l c hl hc =>
    have hfields := mt resolveConfig_none.mpr (by rw [hc]; exact Option.some_ne_none _)
    have hl := indexOf_some.mp hl
    have hb : ¬ BadParam (.lineConfig line f) := not_or.mpr ⟨by omega, hfields⟩
    have hfound := t.notFound_lineConfig (line := line) hc
    have hwrong : WrongState t (.lineConfig line f) ↔ (t.line l).run ≠ .stopped := exists_named hl
    have huse := t.inUse_lineConfig hl hc
    split
    · next h => exact .ofNotFound hb (hfound.mpr h)
    · next h =>
      have hf := mt hfound.mp h
      split
      · next h => exact .ofWrongState hb hf (hwrong.mpr h)
      · next h =>
        have hw := mt hwrong.mp h
        split
        · next h => exact .ofInUse hb hf hw (huse.mpr h)
        · next h => exact .ofPassed hb hf hw (mt huse.mp h) id
  · next h =>
    refine .ofBadParam ?_
    cases hl : lineOf line with
    | none => exact .inl (indexOf_eq_none.mp hl)
    | some l =>
      cases hc : resolveConfig f with
      | none => exact .inr (resolveConfig_none.mp hc)
      | some c => exact (h l c hl hc).elim

theorem State.judged_lineStart (t : State) (line : Byte) : t.Judged (.lineStart line) (t.adminLineStart line) := by
  unfold State.adminLineStart
  split
  · next hl => exact .ofBadParam (indexOf_eq_none.mp hl)
  · next l hl =>
    have hl := indexOf_some.mp hl
    have hb : ¬ BadParam (.lineStart line) := by
      simp only [BadParam]
      omega
    have hwrong : WrongState t (.lineStart line) ↔ (t.line l).config = none ∨ (t.line l).run = .running :=
      or_congr (forall_named hl) (exists_named hl)
    split
    · next h => exact .ofWrongState hb id (hwrong.mpr (.inl (Option.isNone_iff_eq_none.mp h)))
    · next hc =>
      have hw : (t.line l).run ≠ .running → ¬ WrongState t (.lineStart line) := fun h =>
        mt hwrong.mp (not_or.mpr ⟨mt Option.isNone_iff_eq_none.mpr hc, h⟩)
      split
      · next h => exact .ofPassed hb id (hw (by simp [h])) id id
      · next h => exact .ofPassed hb id (hw (by simp [h])) id id
      · next h => exact .ofPassed hb id (hw (by simp [h])) id id
      · next h => exact .ofWrongState hb id (hwrong.mpr (.inr h))
      · next h => exact .ofPassed hb id (hw (by simp [h])) id id

theorem State.judged_lineStop (t : State) (line mode : Byte) : t.Judged (.lineStop line mode) (t.adminLineStop line mode) := by
  unfold State.adminLineStop
  split
  · next hl => exact .ofBadParam (.inl (indexOf_eq_none.mp hl))
  · next l hl =>
    have hl := indexOf_some.mp hl
    split
    · next h => exact .ofBadParam (.inr h)
    · next h => exact .ofPassed (not_or.mpr ⟨by omega, h⟩) id id id id

/-! ## Stations and queries (R167 to R170) -/

theorem State.cannotScan_iff {t : State} {line : Byte} {l : LineId} (h : line.toNat = l.val) (period : Half) :
    (period ≠ 0 ∧ CannotScan t line) ↔ t.cannotScan l period = true := by
  simp only [State.cannotScan, Bool.and_eq_true, bne_iff_ne, Option.isNone_iff_eq_none, CannotScan, forall_named h, Line.noticeRing,
    Option.bind_eq_none_iff, Option.mem_def]

theorem stationAddrOk_iff {b : Byte} : (!stationAddrOk b) = true ↔ b = 0 ∨ 126 < b.toNat := by
  simp only [stationAddrOk, Bool.not_eq_true', decide_eq_false_iff_not, byte_eq_zero]
  omega

theorem scanPeriodOk_iff {p : Half} : (!scanPeriodOk p) = true ↔ 1 ≤ p.toNat ∧ p.toNat ≤ 4 := by
  simp only [scanPeriodOk, Bool.not_eq_true', decide_eq_false_iff_not]
  omega

theorem State.judged_stationAttach (t : State) (line addr : Byte) (period : Half) :
    t.Judged (.stationAttach line addr period) (t.adminStationAttach line addr period) := by
  unfold State.adminStationAttach
  split
  · next hl => exact .ofBadParam (.inl (indexOf_eq_none.mp hl))
  · next l hl =>
    have hl := indexOf_some.mp hl
    have hbad : BadParam (.stationAttach line addr period) ↔ (!stationAddrOk addr || !scanPeriodOk period) = true := by
      rw [Bool.or_eq_true, stationAddrOk_iff, scanPeriodOk_iff, or_assoc]
      exact or_iff_right (by omega)
    have hwrong : WrongState t (.stationAttach line addr period) ↔ t.cannotScan l period = true := State.cannotScan_iff hl period
    have huse : InUse t (.stationAttach line addr period) ↔ (t.lookup l addr.toNat).isSome = true := by
      rw [Option.isSome_iff_ne_none]
      exact (noEntry_iff hl).not
    split
    · next h => exact .ofBadParam (hbad.mpr h)
    · next h =>
      have hb := mt hbad.mp h
      split
      · next h => exact .ofWrongState hb id (hwrong.mpr h)
      · next h =>
        have hw := mt hwrong.mp h
        split
        · next h => exact .ofInUse hb id hw (huse.mpr h)
        · next h =>
          have hi := mt huse.mp h
          split
          · next h =>
            exact .ofNoRoom hb id hw hi
          · next e h =>
            refine .ofPassed hb id hw hi fun hroom => hroom e ?_
            simpa using List.find?_some h

theorem State.judged_stationDetach (t : State) (line addr : Byte) :
    t.Judged (.stationDetach line addr) (t.adminStationDetach line addr) := by
  unfold State.adminStationDetach
  split
  · next hl => exact .ofBadParam (.inl (indexOf_eq_none.mp hl))
  · next l hl =>
    have hl := indexOf_some.mp hl
    have hbad : BadParam (.stationDetach line addr) ↔ (!stationAddrOk addr) = true := by
      rw [stationAddrOk_iff]
      exact or_iff_right (by omega)
    split
    · next h => exact .ofBadParam (hbad.mpr h)
    · next h =>
      have hb := mt hbad.mp h
      have hfound : NotFound t (.stationDetach line addr) ↔ t.lookup l addr.toNat = none := noEntry_iff hl
      split
      · next h => exact .ofNotFound hb (hfound.mpr h)
      · next e h => exact .ofPassed hb (mt hfound.mp (by rw [h]; exact Option.some_ne_none _)) id id id

theorem State.judged_stationScan (t : State) (line addr : Byte) (period : Half) :
    t.Judged (.stationScan line addr period) (t.adminStationScan line addr period) := by
  unfold State.adminStationScan
  split
  · next hl => exact .ofBadParam (.inl (indexOf_eq_none.mp hl))
  · next l hl =>
    have hl := indexOf_some.mp hl
    have hbad : BadParam (.stationScan line addr period) ↔ (!stationAddrOk addr || !scanPeriodOk period) = true := by
      rw [Bool.or_eq_true, stationAddrOk_iff, scanPeriodOk_iff, or_assoc]
      exact or_iff_right (by omega)
    have hfound : NotFound t (.stationScan line addr period) ↔ t.lookup l addr.toNat = none := noEntry_iff hl
    have hwrong : WrongState t (.stationScan line addr period) ↔ t.cannotScan l period = true := State.cannotScan_iff hl period
    split
    · next h => exact .ofBadParam (hbad.mpr h)
    · next h =>
      have hb := mt hbad.mp h
      split
      · next h => exact .ofNotFound hb (hfound.mpr h)
      · next e h =>
        have hf := mt hfound.mp (by rw [h]; exact Option.some_ne_none _)
        split
        · next h => exact .ofWrongState hb hf (hwrong.mpr h)
        · next h => exact .ofPassed hb hf (mt hwrong.mp h) id id

theorem State.judged_stationQuery (t : State) (index : Byte) (clear : Bool) (buf : Addr) :
    t.Judged (.stationQuery index clear buf) (t.adminStationQuery index clear buf) := by
  unfold State.adminStationQuery
  split
  · next he => exact .ofBadParam (indexOf_eq_none.mp he)
  · next e he =>
    have he := indexOf_some.mp he
    have hb : ¬ BadParam (.stationQuery index clear buf) := by
      simp only [BadParam]
      omega
    have hfound : NotFound t (.stationQuery index clear buf) ↔ t.station e = none := forall_named he
    split
    · next h => exact .ofNotFound hb (hfound.mpr h)
    · next x h => exact .ofPassed hb (mt hfound.mp (by rw [h]; exact Option.some_ne_none _)) id id id

theorem State.judged_lineQuery (t : State) (line part : Byte) (clear : Bool) (buf : Addr) :
    t.Judged (.lineQuery line part clear buf) (t.adminLineQuery line part clear buf) := by
  unfold State.adminLineQuery
  split
  · next hl => exact .ofBadParam (.inl (indexOf_eq_none.mp hl))
  · next l hl =>
    have hl := indexOf_some.mp hl
    split
    · next h => exact .ofBadParam (.inr h)
    · next h => exact .ofPassed (not_or.mpr ⟨by omega, h⟩) id id id id

/-- Every command's tests decide in the order of R153. -/
theorem State.judged_runAdmin (t : State) (c : AdminCmd) : t.Judged c (t.runAdmin c) := by
  cases c with
  | ringCreate => exact t.judged_ringCreate ..
  | ringPause => exact t.judged_ringPause ..
  | ringResume => exact t.judged_ringResume ..
  | ringDelete => exact t.judged_ringDelete ..
  | cringCreate => exact t.judged_cringCreate ..
  | cringPolicy => exact t.judged_cringPolicy ..
  | cringDelete => exact t.judged_cringDelete ..
  | poolCreate => exact t.judged_poolCreate ..
  | poolDelete => exact t.judged_poolDelete
  | lineConfig => exact t.judged_lineConfig ..
  | lineStart => exact t.judged_lineStart ..
  | lineStop => exact t.judged_lineStop ..
  | stationAttach => exact t.judged_stationAttach ..
  | stationDetach => exact t.judged_stationDetach ..
  | stationScan => exact t.judged_stationScan ..
  | stationQuery => exact t.judged_stationQuery ..
  | lineQuery => exact t.judged_lineQuery ..

end Sys2Proof.Machine

/-! # Admin commands (chapter 9)

A taken record, the order of its tests, and the effect of the commands that pass them. -/

namespace Sys2Proof.Machine

open Sys2Proof.Claims

/-! ## The taken record (R128, R152) -/

theorem exec_adminInstr (tag : Half) (c : AdminCmd) (s : State) : exec (adminInstr tag c) s = .next (s.takeCommand tag c).react := by
  cases c <;> rfl

theorem State.takeAdmin_of_running {s : State} (h : AdminReads s) (record : List Byte) (c : AdminCmd) :
    s.takeAdmin record (some c) = (s.adminTaken record).runAdmin c := by
  obtain ⟨hd, hp⟩ := h
  have hr : s.adminReading = true := by simp [State.adminReading, State.working, hd, hp]
  have hne : ¬ s.device = .disabling := by simp [hd]
  unfold State.takeAdmin
  rw [if_pos hr, if_neg hne]

/-- A command of a RUNNING part that reads leads to what the taken record makes of it. -/
theorem admin_leads {s u : State} {tag : Half} {c : AdminCmd} (h : AdminReads s)
    (hu : (s.adminTaken (encodeAdmin tag c)).runAdmin c = u) : ∃ t, exec (adminInstr tag c) s = .next t ∧ AfterUnits u t :=
  leads_of_eq (exec_adminInstr tag c s) ((State.takeAdmin_of_running h _ c).trans hu)

/-- The record taken changes of the rings what no test looks at. -/
theorem State.exists_ring_adminTaken (s : State) (record : List Byte) (r : RingId) {p : SubRing → Prop}
    (hp : ∀ (x : SubRing) h n, p { x with head := h, inFlight := n } ↔ p x) :
    (∃ x ∈ (s.adminTaken record).ring r, p x) ↔ ∃ x ∈ s.ring r, p x := by
  have hring : (s.adminTaken record).ring r =
      if r = 0 then (s.ring 0).map fun x => { x with head := nextIndex (ringSize x.sizeCode) x.head, inFlight := 1 } else s.ring r := by
    show vget (vput _ _ _) r = _
    rw [vget_vput]
    rfl
  rw [hring]
  split
  · next h =>
    subst h
    cases s.ring 0 <;> simp [hp]
  · exact Iff.rfl

theorem State.notFound_adminTaken (s : State) (record : List Byte) (c : AdminCmd) : NotFound (s.adminTaken record) c ↔ NotFound s c := by
  have hring : ∀ ring, RingNotFound (s.adminTaken record) ring ↔ RingNotFound s ring := by
    intro ring
    refine forall₂_congr fun r _ => ?_
    have := s.exists_ring_adminTaken record r (p := fun x => x.state ≠ .draining) fun _ _ _ => Iff.rfl
    simpa using not_congr this
  cases c with
  | ringPause ring => exact hring ring
  | ringResume ring cls => exact hring ring
  | ringDelete ring mode => exact hring ring
  | _ => exact Iff.rfl

theorem State.wrongState_adminTaken (s : State) (record : List Byte) (c : AdminCmd) :
    WrongState (s.adminTaken record) c ↔ WrongState s c := by
  cases c with
  | ringPause ring => exact exists_congr fun r => and_congr_right fun _ => s.exists_ring_adminTaken record r fun _ _ _ => Iff.rfl
  | ringResume ring cls => exact exists_congr fun r => and_congr_right fun _ => s.exists_ring_adminTaken record r fun _ _ _ => Iff.rfl
  | _ => exact Iff.rfl

theorem State.inUse_adminTaken (s : State) (record : List Byte) (c : AdminCmd) : InUse (s.adminTaken record) c ↔ InUse s c := by
  cases c with
  | ringCreate ring =>
    refine exists_congr fun r => and_congr_right fun _ => ?_
    have := s.exists_ring_adminTaken record r (p := fun _ => True) fun _ _ _ => Iff.rfl
    simpa [Option.ne_none_iff_exists'] using this
  | cringDelete ring =>
    exact exists_congr fun q => and_congr_right fun _ =>
      or_congr (exists_congr fun r => s.exists_ring_adminTaken record r fun _ _ _ => Iff.rfl) Iff.rfl
  | _ => exact Iff.rfl

theorem State.noRoom_adminTaken (s : State) (record : List Byte) (c : AdminCmd) : NoRoom (s.adminTaken record) c ↔ NoRoom s c := by
  cases c <;> exact Iff.rfl

theorem completing_eq (s : State) (tag : Half) (c : AdminCmd) (st : Status) (v : Nat) :
    (s.adminTaken (encodeAdmin tag c)).adminDecide st v = completing s tag c st v := rfl

/-- Settles O14: every command's tests decide in their order, and the taken record changes nothing they look at. -/
theorem adminCommandsAreJudgedInOrder : Obligations.AdminCommandsAreJudgedInOrder := by
  intro s tag c h
  have hj := (s.adminTaken (encodeAdmin tag c)).judged_runAdmin c
  have hf := s.notFound_adminTaken (encodeAdmin tag c) c
  have hw := s.wrongState_adminTaken (encodeAdmin tag c) c
  have hi := s.inUse_adminTaken (encodeAdmin tag c) c
  have hr := s.noRoom_adminTaken (encodeAdmin tag c) c
  refine ⟨fun b => admin_leads h (hj.badParam b), fun b f => admin_leads h (hj.notFound b (hf.mpr f)),
    fun b f w => admin_leads h (hj.wrongState b (mt hf.mp f) (hw.mpr w)),
    fun b f w i => admin_leads h (hj.inUse b (mt hf.mp f) (mt hw.mp w) (hi.mpr i)),
    fun b f w i n => admin_leads h (hj.noRoom b (mt hf.mp f) (mt hw.mp w) (mt hi.mp i) (hr.mpr n))⟩

/-! ## Commands that pass, by their operands -/

theorem passes_leads {s u : State} {tag : Half} {c : AdminCmd} (h : Passes s c)
    (hu : (s.adminTaken (encodeAdmin tag c)).runAdmin c = u) : ∃ t, exec (adminInstr tag c) s = .next t ∧ AfterUnits u t :=
  admin_leads h.1 hu

theorem indexOf_ofNat {n : Nat} (hn : n ≤ 256) (i : Fin n) : indexOf n (BitVec.ofNat 8 i) = some i := by
  refine indexOf_val ?_
  rw [BitVec.toNat_ofNat]
  exact Nat.mod_eq_of_lt (i.isLt.trans_le hn)

theorem lineOf_ofNat (l : LineId) : lineOf (BitVec.ofNat 8 l) = some l := indexOf_ofNat (by decide) l

theorem classOf_ofNat (k : ClassId) : classOf (BitVec.ofNat 8 k) = some k := indexOf_ofNat (by decide) k

theorem cringOf_ofNat (q : CRingId) : cringOf (BitVec.ofNat 8 q) = some q := indexOf_ofNat (by decide) q

theorem entryOf_ofNat (e : EntryId) : entryOf (BitVec.ofNat 8 e) = some e := indexOf_ofNat (by decide) e

theorem txnRingOf_ofNat {r : RingId} (h : BitVec.ofNat 8 r.val ≠ 0) : txnRingOf (BitVec.ofNat 8 r) = some r := by
  rw [txnRingOf, if_neg (by simpa using h), indexOf_ofNat (by decide)]

theorem laterCringOf_ofNat {q : CRingId} (h : BitVec.ofNat 8 q.val ≠ 0) : laterCringOf (BitVec.ofNat 8 q) = some q := by
  rw [laterCringOf, if_neg (by simpa using h), indexOf_ofNat (by decide)]

theorem ring_ne_zero {r : RingId} (h : BitVec.ofNat 8 r.val ≠ 0) : r ≠ 0 := by
  rintro rfl
  exact h rfl

theorem exists_ofNat {n : Nat} (hn : n ≤ 256) (i : Fin n) {p : Fin n → Prop} :
    (∃ j : Fin n, j.val = (BitVec.ofNat 8 i.val).toNat ∧ p j) ↔ p i :=
  exists_named (indexOf_some.mp (indexOf_ofNat hn i))

/-- A ring that passes is not DRAINING, and its context is as it was before the record of ring 0 was taken. -/
theorem State.namedRing_adminTaken {s : State} {r : RingId} {x : SubRing} (hr : r ≠ 0) (hx : s.ring r = some x)
    (hst : x.state ≠ .draining) (record : List Byte) : (s.adminTaken record).namedRing r = some x :=
  State.namedRing_of_ring ((vget_vput_ne _ _ hr).trans hx) hst

theorem not_draining {s : State} {r : RingId} {x : SubRing} (hx : s.ring r = some x) (h : ¬ RingNotFound s (BitVec.ofNat 8 r.val)) :
    x.state ≠ .draining := by
  intro hst
  refine h ((State.ringNotFound_iff (indexOf_some.mp (indexOf_ofNat (by decide) r))).mpr ?_)
  exact State.namedRing_none fun y hy => by rw [hx] at hy; cases hy; exact hst

theorem resumeClassOf_ofNat : ∀ k : ClassId, resumeClassOf (BitVec.ofNat 8 k) = some (some k) := by decide

/-- Settles O16. -/
theorem ringCommandsTakeEffect : Obligations.RingCommandsTakeEffect := by
  intro s tag r
  refine ⟨?_, ?_, ?_, ?_⟩
  · intro sizeCode l k q base c h
    refine passes_leads h ?_
    obtain ⟨-, hb, hf, hw, hi, -⟩ := h
    have hr0 : BitVec.ofNat 8 r.val ≠ 0 := fun e => hb (.inl e)
    have hgeo : ¬ (!ringGeometryOk base 32 2 12 sizeCode) = true := fun e => hb (.inr (.inr (.inl ((not_ringGeometryOk (by simp)).mp e))))
    have hq : ¬ (s.cring q).isNone = true := fun e =>
      hf ((forall_named (indexOf_some.mp (cringOf_ofNat q))).mpr (Option.isNone_iff_eq_none.mp e))
    have hl : ¬ (s.line l).config.isNone = true := fun e =>
      hw ((forall_named (indexOf_some.mp (lineOf_ofNat l))).mpr (Option.isNone_iff_eq_none.mp e))
    have hr : ¬ ((s.adminTaken (encodeAdmin tag c)).ring r).isSome = true := fun e =>
      hi ((s.inUse_adminTaken (encodeAdmin tag c) c).mp ((exists_ofNat (by decide) r).mpr (Option.isSome_iff_ne_none.mp e)))
    show State.adminRingCreate _ _ _ _ _ _ _ = _
    rw [State.adminRingCreate, txnRingOf_ofNat hr0, lineOf_ofNat, classOf_ofNat, cringOf_ofNat]
    dsimp only
    rw [if_neg hgeo]
    exact (if_neg hq).trans ((if_neg hl).trans (if_neg hr))
  · intro x hx c h
    refine passes_leads h ?_
    obtain ⟨-, hb, hf, hw, -⟩ := h
    have hr0 : BitVec.ofNat 8 r.val ≠ 0 := fun e => hb (.inl e)
    have hst : ¬ x.state = .paused := fun e => hw ((exists_ofNat (by decide) r).mpr ⟨x, hx, e⟩)
    show State.adminRingPause _ _ = _
    rw [State.adminRingPause, txnRingOf_ofNat hr0]
    dsimp only
    rw [State.namedRing_adminTaken (ring_ne_zero hr0) hx (not_draining hx hf)]
    exact if_neg hst
  · intro x hx c h
    refine passes_leads h ?_
    obtain ⟨-, hb, hf, hw, -⟩ := h
    have hr0 : BitVec.ofNat 8 r.val ≠ 0 := fun e => hb (.inl e)
    have hst : ¬ x.state = .active := fun e => hw ((exists_ofNat (by decide) r).mpr ⟨x, hx, e⟩)
    have hcls : resumeClassOf 0xFF = some none := rfl
    show State.adminRingResume _ _ _ = _
    rw [State.adminRingResume, txnRingOf_ofNat hr0, hcls]
    dsimp only
    rw [State.namedRing_adminTaken (ring_ne_zero hr0) hx (not_draining hx hf)]
    exact if_neg hst
  · intro x hx k c h
    refine passes_leads h ?_
    obtain ⟨-, hb, hf, hw, -⟩ := h
    have hr0 : BitVec.ofNat 8 r.val ≠ 0 := fun e => hb (.inl e)
    have hst : ¬ x.state = .active := fun e => hw ((exists_ofNat (by decide) r).mpr ⟨x, hx, e⟩)
    have hcls : resumeClassOf (BitVec.ofNat 8 k) = some (some k) := resumeClassOf_ofNat k
    show State.adminRingResume _ _ _ = _
    rw [State.adminRingResume, txnRingOf_ofNat hr0, hcls]
    dsimp only
    rw [State.namedRing_adminTaken (ring_ne_zero hr0) hx (not_draining hx hf)]
    exact if_neg hst

/-- Settles O18. -/
theorem completionRingAndPoolCommandsTakeEffect : Obligations.CompletionRingAndPoolCommandsTakeEffect := by
  intro s tag
  refine ⟨?_, ?_, ?_, fun h => ?_⟩
  · intro q sizeCode n ie time base c h
    refine passes_leads h ?_
    obtain ⟨-, hb, -, -, hi, -⟩ := h
    have hq0 : BitVec.ofNat 8 q.val ≠ 0 := fun e => hb (.inl e)
    have hgeo : ¬ (!ringGeometryOk base 16 3 13 sizeCode || n == 0) = true := fun e => by
      rw [Bool.or_eq_true, not_ringGeometryOk (by simp), beq_iff_eq] at e
      exact hb (.inr (.inr e))
    have hq : ¬ (s.cring q).isSome = true := fun e => hi ((exists_ofNat (by decide) q).mpr (Option.isSome_iff_ne_none.mp e))
    show State.adminCringCreate _ _ _ _ _ _ _ = _
    rw [State.adminCringCreate, laterCringOf_ofNat hq0]
    dsimp only
    rw [if_neg hgeo]
    exact if_neg hq
  · intro q c h
    obtain ⟨t, ht, hu⟩ := passes_leads (tag := tag) h rfl
    refine ⟨_, t, ht, hu, ?_⟩
    obtain ⟨-, hb, hf, -, hi, -⟩ := h
    have hq0 : BitVec.ofNat 8 q.val ≠ 0 := fun e => hb (.inl e)
    obtain ⟨x, hx⟩ : ∃ x, s.cring q = some x :=
      Option.ne_none_iff_exists'.mp fun e => hf ((forall_named (indexOf_some.mp (cringOf_ofNat q))).mpr e)
    have huse : ¬ ((s.adminTaken (encodeAdmin tag c)).cringNamed q || decide (0 < x.written) || decide (0 < x.reserved)) = true := by
      intro e
      refine hi ((s.inUse_adminTaken (encodeAdmin tag c) c).mp ((exists_ofNat (by decide) q).mpr ?_))
      simpa only [Bool.or_eq_true, decide_eq_true_eq, State.cringNamed_iff, or_assoc, show (s.adminTaken _).cring q = some x from hx,
        Option.mem_def, Option.some.injEq, exists_eq_left'] using e
    have heff : (s.adminTaken (encodeAdmin tag c)).runAdmin c = { (completing s tag c .ok 0).setCRing q none with
        intcause := s.intcause &&& ~~~(causeMask q.val) } := by
      show State.adminCringDelete _ _ = _
      rw [State.adminCringDelete, laterCringOf_ofNat hq0]
      dsimp only
      rw [show (s.adminTaken (encodeAdmin tag c)).cring q = some x from hx]
      exact if_neg huse
    rw [heff]
    refine ⟨rfl, fun k hk => ?_⟩
    simp [causeMask, hk, bne, Bool.beq_eq_decide_eq]
  · intro sizeCode base c h
    refine passes_leads h ?_
    obtain ⟨-, hb, -, -, hi, -⟩ := h
    have hgeo : ¬ (!ringGeometryOk base 8 2 10 sizeCode) = true := fun e => hb ((not_ringGeometryOk (by simp)).mp e)
    have hp : ¬ s.pool.isSome = true := fun e => hi (Option.isSome_iff_ne_none.mp e)
    show State.adminPoolCreate _ _ _ = _
    rw [State.adminPoolCreate, if_neg hgeo]
    exact if_neg hp
  · refine passes_leads (tag := tag) h ?_
    obtain ⟨-, -, hf, -, hi, -⟩ := h
    have hp : ¬ s.pool.isNone = true := fun e => hf (Option.isNone_iff_eq_none.mp e)
    have hneed : ¬ s.poolNeeded = true := fun e => hi (s.poolNeeded_iff.mp e)
    show State.adminPoolDelete _ = _
    exact (if_neg hp).trans (if_neg hneed)

/-! ## The steps of a policy change (R146) -/

theorem setCRing_setCRing (s : State) (q : CRingId) (x y : Option CRing) : (s.setCRing q x).setCRing q y = s.setCRing q y := by
  have h : vput (vput s.crings q x) q y = vput s.crings q y := by simp [vput]
  unfold State.setCRing
  rw [h]

theorem State.setCRing_modCRing (s : State) (q : CRingId) (x : CRing) (f : CRing → CRing) :
    (s.setCRing q (some x)).modCRing q f = s.setCRing q (some (f x)) := by
  unfold State.modCRing
  rw [State.cring_setCRing_same, setCRing_setCRing]
  rfl

/-- Settles O19: the steps of R146 by the first that applies. -/
theorem policyChangeTakesTheStepsInOrder : Obligations.PolicyChangeTakesTheStepsInOrder := by
  intro s tag q n ie time x hx c y base goes signals first h
  have hpass := h
  obtain ⟨-, hb, -⟩ := h
  have hn : ¬ n = 0 := fun e => hb (.inr e)
  have hrun : (s.adminTaken (encodeAdmin tag c)).runAdmin c =
      (((s.adminTaken (encodeAdmin tag c)).setCRing q (some y)).policySteps q y).adminDecide .ok 0 := by
    show State.adminCringPolicy _ _ _ _ _ = _
    rw [State.adminCringPolicy, cringOf_ofNat]
    dsimp only
    rw [if_neg hn, show (s.adminTaken (encodeAdmin tag c)).cring q = some x from hx]
  have hgoes : ∀ u, (((s.adminTaken (encodeAdmin tag c)).setCRing q (some y)).policySteps q y).adminDecide .ok 0 = u → goes u :=
    fun u hu => passes_leads hpass (hrun.trans hu)
  have hsignal : (((s.adminTaken (encodeAdmin tag c)).setCRing q (some y)).signalRing q).adminDecide .ok 0 = signals := by
    have : ∀ (u : State) (d : CRing), (u.setCRing q (some y)).modCRing q (fun _ => d) = u.setCRing q (some d) :=
      fun u d => u.setCRing_modCRing q y _
    exact congrArg (State.adminDecide · .ok 0)
      (State.setCRing_modCRing ((s.adminTaken (encodeAdmin tag c)).setCause q.val) q y fun c => { c with unsignalled := 0, timer := none })
  have hset : ∀ z, ((s.adminTaken (encodeAdmin tag c)).setCRing q (some y)).setCRing q (some z) =
      (s.adminTaken (encodeAdmin tag c)).setCRing q (some z) := fun z => setCRing_setCRing _ _ _ _
  have htime : ∀ {time : Half}, time ≠ 0 → ¬ time.toNat = 0 := fun h e => h (BitVec.toNat_eq.mpr e)
  refine ⟨fun hfirst => hgoes _ ?_, fun hfirst ht => hgoes _ ?_, fun hfirst ht since hs hle => hgoes _ ?_,
    fun hfirst ht hs hlt => hgoes _ ?_, fun hfirst ht hs hlt => hgoes _ ?_⟩
  · rw [State.policySteps, if_pos hfirst]
    exact hsignal
  · have h0 : y.time = 0 := by rw [show y.time = time.toNat from rfl, ht]; rfl
    rw [State.policySteps, if_neg hfirst, if_pos h0, hset]
    rfl
  · rw [State.policySteps, if_neg hfirst, if_neg (htime ht), show y.timer = some since from hs]
    exact (congrArg (State.adminDecide · .ok 0) (if_pos hle)).trans hsignal
  · rw [State.policySteps, if_neg hfirst, if_neg (htime ht), show y.timer = none from hs]
    refine (congrArg (State.adminDecide · .ok 0) (if_pos hlt)).trans ?_
    rw [hset]
    rfl
  · rw [State.policySteps, if_neg hfirst, if_neg (htime ht)]
    cases hx : y.timer with
    | none =>
      have h0 : ¬ 0 < y.unsignalled := Nat.not_lt.mpr (hs hx).le
      exact congrArg (State.adminDecide · .ok 0) (if_neg h0)
    | some since =>
      exact congrArg (State.adminDecide · .ok 0) (if_neg (Nat.not_le.mpr (hlt since hx)))

/-! ## Lines -/

theorem parityOf_names {v : Nat} {p : Parity} (h : parityOf v = some p) :
    (v = 0 → p = .none) ∧ (v = 1 → p = .even) ∧ (v = 2 → p = .odd) := by
  refine ⟨?_, ?_, ?_⟩
  all_goals
    rintro rfl
    cases h
    rfl

/-- Settles O20. -/
theorem lineConfigTakesTheWholeRecord : Obligations.LineConfigTakesTheWholeRecord := by
  intro s tag l f c h
  have hpass := h
  obtain ⟨-, hb, hf, hw, hi, -⟩ := h
  obtain ⟨g, hg⟩ : ∃ g, resolveConfig f = some g :=
    Option.ne_none_iff_exists'.mp fun e => hb (.inr (resolveConfig_none.mp e))
  obtain ⟨hnone, hsome⟩ := resolveConfig_noticeRing hg
  have hmissing : ¬ s.noticeRingMissing g = true := mt (s.notFound_lineConfig hg).mpr hf
  have hstopped : ¬ (s.line l).run ≠ .stopped := fun e => hw ((exists_ofNat (by decide) l).mpr e)
  have hscan : ¬ (g.noticeRing.isNone && s.scannedOn l) = true :=
    mt (s.inUse_lineConfig (indexOf_some.mp (lineOf_ofNat l)) hg).mpr hi
  obtain ⟨t, ht, hu⟩ := passes_leads (tag := tag) hpass (u := (completing s tag c .ok 0).setLine l { s.line l with config := some g }) (by
    show State.adminLineConfig _ _ _ = _
    rw [State.adminLineConfig, lineOf_ofNat, hg]
    exact (if_neg hmissing).trans ((if_neg hstopped).trans (if_neg hscan)))
  refine ⟨g, t, ht, hu, ?_⟩
  unfold resolveConfig at hg
  split at hg
  · next mode parity ring hm hp hr =>
    dsimp only at hg
    split at hg
    · cases hg
      obtain ⟨hp0, hp1, hp2⟩ := parityOf_names hp
      refine ⟨?_, rfl, hp0, hp1, hp2, rfl, rfl, rfl, rfl, rfl, rfl, rfl, rfl, rfl, rfl, hnone.mpr, fun q hq => (hsome q).mpr hq.symm⟩
      rw [modeOf_some hm]
      cases mode <;> rfl
    · cases hg
  · cases hg

/-- Settles O21. -/
theorem lineStartEntersStarting : Obligations.LineStartEntersStarting := by
  intro s tag l g hg c x h hrun
  refine passes_leads h ?_
  have hconfig : ¬ (s.line l).config.isNone = true := by simp [Option.mem_def.mp hg]
  have hasync : (x.isAsync && x.pins.rxd == .mark) = true ↔ g.mode = .async ∧ x.pins.rxd = .mark := by
    simp [Line.isAsync, x, Option.mem_def.mp hg]
  have hclocked : x.isClocked = true ↔ g.mode = .clocked := by simp [Line.isClocked, x, Option.mem_def.mp hg]
  have heff : (s.adminTaken (encodeAdmin tag c)).runAdmin c =
      ((s.adminTaken (encodeAdmin tag c)).modLine l (Line.enterStarting s.nowUs)).adminWait (.lineStart l) 0 := by
    show State.adminLineStart _ _ = _
    rw [State.adminLineStart, lineOf_ofNat]
    dsimp only
    refine (if_neg hconfig).trans ?_
    rcases hrun with hrun | hrun
    · rw [show ((s.adminTaken (encodeAdmin tag c)).line l).run = .stopped from hrun]
      rfl
    · rw [show ((s.adminTaken (encodeAdmin tag c)).line l).run = .faulted from hrun]
      rfl
  rw [heff]
  simp only [← hasync, ← hclocked]
  rfl

/-! ## Stations -/

theorem firstFin_eq_some {n : Nat} {p : Fin n → Bool} {e : Fin n} (h : firstFin p = some e) : p e = true ∧ ∀ f, f < e → p f = false := by
  obtain ⟨hp, k, hk, he, hlt⟩ := List.find?_eq_some_iff_getElem.mp h
  simp only [List.getElem_finRange, Fin.cast_mk] at he hlt
  subst he
  exact ⟨hp, fun f hf => by simpa using hlt f.val hf⟩

/-- Settles O23. -/
theorem stationAttachAndScan : Obligations.StationAttachAndScan := by
  intro s tag l addr period
  refine ⟨?_, ?_⟩
  · intro c h
    have hpass := h
    obtain ⟨-, hb, -, hw, hi, hn⟩ := h
    have haddr : ¬ (!stationAddrOk addr || !scanPeriodOk period) = true := fun e => by
      rw [Bool.or_eq_true, stationAddrOk_iff, scanPeriodOk_iff, or_assoc] at e
      exact hb (.inr e)
    have hscan : ¬ s.cannotScan l period = true := mt (State.cannotScan_iff (indexOf_some.mp (lineOf_ofNat l)) period).mpr hw
    have hnew : ¬ (s.lookup l addr.toNat).isSome = true := fun e =>
      hi (mt (noEntry_iff (indexOf_some.mp (lineOf_ofNat l))).mp (Option.isSome_iff_ne_none.mp e))
    cases hfree : s.freeStation with
    | none =>
      refine absurd (fun e => ?_) hn
      have := List.find?_eq_none.mp hfree e (List.mem_finRange e)
      simpa using this
    | some e =>
      obtain ⟨he, hlt⟩ := firstFin_eq_some hfree
      refine ⟨e, Option.isNone_iff_eq_none.mp he, fun f hf => Option.isNone_eq_false_iff.mp (hlt f hf) |> Option.isSome_iff_ne_none.mp, passes_leads hpass ?_⟩
      show State.adminStationAttach _ _ _ _ = _
      rw [State.adminStationAttach, lineOf_ofNat]
      dsimp only
      rw [if_neg haddr, show (s.adminTaken (encodeAdmin tag c)).freeStation = some e from hfree]
      exact (if_neg hscan).trans (if_neg hnew)
  · rintro c h hk e x hx rfl hxa
    have hpass := h
    obtain ⟨-, hb, -, hw, -⟩ := h
    have haddr : ¬ (!stationAddrOk addr || !scanPeriodOk period) = true := fun e => by
      rw [Bool.or_eq_true, stationAddrOk_iff, scanPeriodOk_iff, or_assoc] at e
      exact hb (.inr e)
    have hscan : ¬ s.cannotScan x.line period = true :=
      mt (State.cannotScan_iff (indexOf_some.mp (lineOf_ofNat x.line)) period).mpr hw
    have hlookup : (s.adminTaken (encodeAdmin tag c)).lookup x.line addr.toNat = some e :=
      (State.lookup_eq_some (s := s) hk).mpr ⟨x, hx, rfl, hxa⟩
    have hzero : period.toNat = 0 ↔ period = 0 := (BitVec.toNat_eq (y := 0#16)).symm
    refine passes_leads hpass ?_
    show State.adminStationScan _ _ _ _ = _
    rw [State.adminStationScan, lineOf_ofNat]
    dsimp only
    rw [if_neg haddr, hlookup]
    refine (if_neg hscan).trans ?_
    rw [show (s.adminTaken (encodeAdmin tag c)).station e = some x from hx]
    simp only [hzero]
    rfl

theorem satSucc_eq (top n : Nat) : satSucc top n = min top (n + 1) := by
  unfold satSucc
  split <;> omega

theorem slotCut_cutOff (st : Status) (x : Slot) : SlotCut st x (x.cutOff st) := by
  unfold SlotCut Slot.cutOff
  cases x.state
  case loading => cases x.decided <;> rfl
  all_goals rfl

/-- What STATION_DETACH makes of a line: the station's slots are cut off and its record read is marked. -/
theorem Line.detachSlots_spec {x y : Line} {a : Nat} {q : List EntryId} (h : y = { x.detachSlots a with noticeQueue := q }) :
    y = { x with slots := y.slots, read := y.read, noticeQueue := y.noticeQueue }
    ∧ y.read = x.read.map (fun rd => { rd with events := rd.events ++ [.detached a] })
    ∧ (∀ i, x.slot i = none → y.slot i = none)
    ∧ ∀ i, ∀ b ∈ x.slot i, ∃ c ∈ y.slot i, if b.addr = a then SlotCut .detached b c else c = b := by
  subst h
  have hslot : ∀ i, ({ x.detachSlots a with noticeQueue := q } : Line).slot i =
      (x.slot i).map fun y => if y.addr = a then y.cutOff .detached else y := fun i => Line.slot_mapSlots x _ i
  refine ⟨rfl, rfl, fun i hi => by rw [hslot, hi]; rfl, fun i b hb => ⟨_, by rw [hslot, Option.mem_def.mp hb]; rfl, ?_⟩⟩
  split
  · next hb =>
    dsimp only
    rw [if_pos hb]
    exact slotCut_cutOff _ _
  · next hb => exact if_neg hb

theorem State.line_adminWait (s : State) (w : AdminWait) (n : Nat) (l : LineId) : (s.adminWait w n).line l = s.line l := rfl

theorem State.line_adminDecide (s : State) (st : Status) (v : Nat) (l : LineId) : (s.adminDecide st v).line l = s.line l := rfl

theorem queueAppend_eq (q : List EntryId) (e : EntryId) : queueAppend q e = if e ∈ q then q else q ++ [e] := by
  simp [queueAppend]

/-- Settles O24. -/
theorem stationDetachFreesOrWaits : Obligations.StationDetachFreesOrWaits := by
  rintro s tag _ addr c h hk e x hx rfl hxa
  obtain ⟨t, ht, hu⟩ := passes_leads (tag := tag) h rfl
  refine ⟨_, t, ht, hu, ?_⟩
  obtain ⟨-, hb, -⟩ := h
  have haddr : ¬ (!stationAddrOk addr) = true := fun e => hb (.inr (stationAddrOk_iff.mp e))
  have hlookup : (s.adminTaken (encodeAdmin tag c)).lookup x.line addr.toNat = some e :=
    (State.lookup_eq_some (s := s) hk).mpr ⟨x, hx, rfl, hxa⟩
  have hattempt : (s.line x.line).attemptTo addr.toNat = true ↔ ∃ a ∈ (s.line x.line).attempt, a.addr = addr.toNat := by
    unfold Line.attemptTo
    cases (s.line x.line).attempt <;> simp
  have hcut : (((s.adminTaken (encodeAdmin tag c)).modLine x.line (Line.detachSlots addr.toNat)).line x.line) =
      (s.line x.line).detachSlots addr.toNat := State.line_modLine_same _ _ _
  have heff : (s.adminTaken (encodeAdmin tag c)).runAdmin c =
      if (s.line x.line).attemptTo addr.toNat then
        (((s.adminTaken (encodeAdmin tag c)).modLine x.line (Line.detachSlots addr.toNat)).changeState e .detaching).adminWait (.detach e) 0
      else
        (((s.adminTaken (encodeAdmin tag c)).modLine x.line (Line.detachSlots addr.toNat)).freeEntry e).adminDecide .ok e.val := by
    show State.adminStationDetach _ _ _ = _
    rw [State.adminStationDetach, lineOf_ofNat]
    dsimp only
    rw [if_neg haddr, hlookup]
    dsimp only
    rw [hcut]
    rfl
  rw [heff]
  generalize hw : (s.adminTaken (encodeAdmin tag c)).modLine x.line (Line.detachSlots addr.toNat) = w at *
  have hsame : w = { s.adminTaken (encodeAdmin tag c) with lines := w.lines } := by rw [← hw]; rfl
  have hstation : w.station e = some x := by rw [hsame]; exact hx
  have hother : ∀ k, k ≠ x.line → w.line k = s.line k := fun k hk => by rw [← hw]; exact State.line_modLine_ne _ _ hk
  split
  · next hto =>
    have hstate : w.changeState e .detaching = (w.setStation e (some { x with
        state := .detaching, noticePending := true, changes := min 255 (x.changes + 1) })).modLine x.line
          fun ln => { ln with noticeQueue := queueAppend ln.noticeQueue e } := by
      rw [State.changeState, hstation, ← satSucc_eq]
    rw [hstate, if_pos (hattempt.mp hto)]
    obtain ⟨h1, h2, h3, h4⟩ := Line.detachSlots_spec (x := s.line x.line) (a := addr.toNat)
      (q := queueAppend (s.line x.line).noticeQueue e) rfl
    have hline : (((w.setStation e (some { x with
        state := .detaching, noticePending := true, changes := min 255 (x.changes + 1) })).modLine x.line
          fun ln => { ln with noticeQueue := queueAppend ln.noticeQueue e }).adminWait (.detach e) 0).line x.line =
        { (s.line x.line).detachSlots addr.toNat with noticeQueue := queueAppend (s.line x.line).noticeQueue e } := by
      rw [State.line_adminWait, State.line_modLine_same, State.setStation_line_frame, hcut]
      rfl
    rw [hline]
    refine ⟨fun k hk => ?_, h1, h2, h3, h4, ?_, queueAppend_eq _ _⟩
    · rw [State.line_adminWait, State.line_modLine_ne _ _ hk]
      exact hother k hk
    · rw [hsame]
      rfl
  · next hto =>
    have hstate : w.freeEntry e = (w.setStation e none).modLine x.line
          fun ln => { ln with noticeQueue := ln.noticeQueue.filter (· ≠ e) } := by
      rw [State.freeEntry, hstation]
    rw [hstate, if_neg (mt hattempt.mpr hto)]
    obtain ⟨h1, h2, h3, h4⟩ := Line.detachSlots_spec (x := s.line x.line) (a := addr.toNat)
      (q := (s.line x.line).noticeQueue.filter (· ≠ e)) rfl
    have hline : (((w.setStation e none).modLine x.line
          fun ln => { ln with noticeQueue := ln.noticeQueue.filter (· ≠ e) }).adminDecide .ok e.val).line x.line =
        { (s.line x.line).detachSlots addr.toNat with noticeQueue := (s.line x.line).noticeQueue.filter (· ≠ e) } := by
      rw [State.line_adminDecide, State.line_modLine_same, State.setStation_line_frame, hcut]
      rfl
    rw [hline]
    refine ⟨fun k hk => ?_, h1, h2, h3, h4, ?_, rfl⟩
    · rw [State.line_adminDecide, State.line_modLine_ne _ _ hk]
      exact hother k hk
    · rw [hsame]
      rfl
/-! ## Deleting a submission ring (R132, R158) -/

theorem State.readInProgress_iff (s : State) (r : RingId) : s.readInProgress r = true ↔ ∃ l, ∃ rd ∈ (s.line l).read, rd.ring = r := by
  simp only [State.readInProgress, List.any_eq_true, List.mem_finRange, true_and]
  refine exists_congr fun l => ?_
  cases (s.line l).read <;> simp

/-- What RING_DELETE abort makes of the ring's line. -/
theorem Line.ringAborted_spec (r : RingId) (x : Line) :
    x.ringAborted r = { x with slots := (x.ringAborted r).slots, read := (x.ringAborted r).read }
    ∧ (x.ringAborted r).read =
        x.read.map (fun rd => if rd.ring = r then { rd with events := rd.events ++ [.decided .aborted] } else rd)
    ∧ (∀ i, x.slot i = none → (x.ringAborted r).slot i = none)
    ∧ ∀ i, ∀ a ∈ x.slot i, ∃ b ∈ (x.ringAborted r).slot i,
        if a.ring ≠ r then b = a
        else if a.state = .active then b = { a with lastAttempt := true } else SlotCut .aborted a b := by
  have hslot : ∀ i, (x.ringAborted r).slot i = (x.slot i).map fun y => if y.ring = r then y.ringAborted else y :=
    fun i => Line.slot_mapSlots x _ i
  refine ⟨rfl, rfl, fun i hi => by rw [hslot, hi]; rfl, fun i a ha => ⟨_, by rw [hslot, Option.mem_def.mp ha]; rfl, ?_⟩⟩
  dsimp only
  by_cases hr : a.ring = r
  · rw [if_neg (not_not.mpr hr), if_pos hr, Slot.ringAborted]
    split
    · rfl
    · exact slotCut_cutOff _ _
  · rw [if_pos hr, if_neg hr]

theorem indexDistance_pos {n h t : Nat} (hh : h < n) (ht : t < n) (hne : h ≠ t) : 0 < indexDistance n h t := by
  unfold indexDistance
  by_cases hle : h ≤ t
  · rw [show t + n - h = t - h + n by omega, Nat.add_mod_right, Nat.mod_eq_of_lt (by omega)]
    omega
  · rw [Nat.mod_eq_of_lt (by omega)]
    omega

/-- Settles O17. -/
theorem ringDeleteDrainsTheRing : Obligations.RingDeleteDrainsTheRing := by
  intro s tag r mode x hx c reading h hhead htail hne
  have hpass := h
  obtain ⟨-, hb, hf, -⟩ := h
  have hr0 : BitVec.ofNat 8 r.val ≠ 0 := fun e => hb (.inl e)
  have hmode : ¬ 1 < mode.toNat := fun e => hb (.inr (.inr e))
  have hreading : s.readInProgress r = true ↔ reading := s.readInProgress_iff r
  have heff : (s.adminTaken (encodeAdmin tag c)).runAdmin c =
      ((match x.line with
        | some l => if mode = 1 then
            ((s.adminTaken (encodeAdmin tag c)).setRing r (some { x with state := .draining })).modLine l (Line.ringAborted r)
          else (s.adminTaken (encodeAdmin tag c)).setRing r (some { x with state := .draining })
        | none => (s.adminTaken (encodeAdmin tag c)).setRing r (some { x with state := .draining })) : State).adminWait (.ringDelete r)
          (s.abandonedCount r x) := by
    show State.adminRingDelete _ _ _ = _
    rw [State.adminRingDelete, txnRingOf_ofNat hr0]
    dsimp only
    rw [if_neg hmode, State.namedRing_adminTaken (ring_ne_zero hr0) hx (not_draining hx hf)]
    rfl
  obtain ⟨t, ht, hu⟩ := passes_leads (tag := tag) hpass heff
  refine ⟨s.abandonedCount r x, _, t, ht, hu, fun hread => ?_, fun hread => ?_, ?_⟩
  · rw [State.abandonedCount, if_neg (mt hreading.mp hread)]
    rfl
  · have hne := hne hread
    rw [State.abandonedCount, if_pos (hreading.mpr hread)]
    have hpos : 0 < (x.tail + 2 ^ x.sizeCode - x.head) % 2 ^ x.sizeCode := indexDistance_pos hhead htail hne
    have hlt := Nat.mod_lt (x.tail + 2 ^ x.sizeCode - x.head) (Nat.two_pow_pos x.sizeCode)
    show ((x.tail + 2 ^ x.sizeCode - x.head) % 2 ^ x.sizeCode + 2 ^ x.sizeCode - 1) % 2 ^ x.sizeCode + 1 = _
    generalize (x.tail + 2 ^ x.sizeCode - x.head) % 2 ^ x.sizeCode = n at *
    rw [show n + 2 ^ x.sizeCode - 1 = n - 1 + 2 ^ x.sizeCode by omega, Nat.add_mod_right, Nat.mod_eq_of_lt (by omega)]
    omega
  · obtain ⟨h1, h2, h3, h4⟩ := (s.line (x.line.getD 0)).ringAborted_spec r
    split
    · next l hl =>
      rw [hl] at h1 h2 h3 h4
      split
      · next hm =>
        refine ⟨rfl, fun h0 => ?_, fun _ k hk => ?_, fun _ k hk => ?_⟩
        · rw [hm] at h0
          cases h0
        · exact State.line_modLine_ne _ _ fun e => hk (by rw [hl, e])
        · obtain rfl : k = l := Option.some.inj (hk.trans hl)
          rw [State.line_adminWait, State.line_modLine_same]
          exact ⟨h1, h2, h3, h4⟩
      · next hm => exact ⟨rfl, fun _ _ => rfl, fun h1 => absurd h1 hm, fun h1 => absurd h1 hm⟩
    · next hl => exact ⟨rfl, fun _ _ => rfl, fun _ _ _ => rfl, fun _ k hk => by rw [hl] at hk; cases hk⟩

end Sys2Proof.Machine

/-! # The bytes of records (chapter 11)

Fields and their bytes, the round trip of the records the host writes, and the layout of the records and reports the part writes. -/

namespace Sys2Proof

/-! ## Fields and bytes -/

theorem halfAt_bytes (h : Half) : (h.extractLsb' 8 8 ++ h.extractLsb' 0 8 : Half) = h := by
  apply BitVec.eq_of_getLsbD_eq
  intro k hk
  simp only [BitVec.getLsbD_append, BitVec.getLsbD_extractLsb']
  grind

theorem addrAt_bytes (a : Addr) : (a.extractLsb' 56 8 ++ a.extractLsb' 48 8 ++ a.extractLsb' 40 8 ++ a.extractLsb' 32 8
    ++ a.extractLsb' 24 8 ++ a.extractLsb' 16 8 ++ a.extractLsb' 8 8 ++ a.extractLsb' 0 8 : Addr) = a := by
  apply BitVec.eq_of_getLsbD_eq
  intro k hk
  simp only [BitVec.getLsbD_append, BitVec.getLsbD_extractLsb']
  grind

theorem halfBytes_append (b c : Byte) : halfBytes (c ++ b) = [b, c] := by
  have h : (c ++ b : Half).extractLsb' 0 8 = b ∧ (c ++ b : Half).extractLsb' 8 8 = c := by
    constructor
    all_goals
      apply BitVec.eq_of_getLsbD_eq
      intro k hk
      simp only [BitVec.getLsbD_append, BitVec.getLsbD_extractLsb']
      grind
  rw [halfBytes, h.1, h.2]

@[simp] theorem halfBytes_halfAt (bs : List Byte) (k : Nat) : halfBytes (halfAt bs k) = [byteAt bs k, byteAt bs (k + 1)] := halfBytes_append _ _

theorem addrBytes_append (b0 b1 b2 b3 b4 b5 b6 b7 : Byte) :
    addrBytes (b7 ++ b6 ++ b5 ++ b4 ++ b3 ++ b2 ++ b1 ++ b0) = [b0, b1, b2, b3, b4, b5, b6, b7] := by
  have h : ∀ (n : Nat) (b : Byte), (∀ k < 8, (b7 ++ b6 ++ b5 ++ b4 ++ b3 ++ b2 ++ b1 ++ b0).getLsbD (n + k) = b.getLsbD k) →
      (b7 ++ b6 ++ b5 ++ b4 ++ b3 ++ b2 ++ b1 ++ b0).extractLsb' n 8 = b := by
    intro n b h
    apply BitVec.eq_of_getLsbD_eq
    intro k hk
    rw [BitVec.getLsbD_extractLsb', h k hk]
    simp [hk]
  unfold addrBytes
  rw [h 0 b0, h 8 b1, h 16 b2, h 24 b3, h 32 b4, h 40 b5, h 48 b6, h 56 b7]
  all_goals
    intro k hk
    simp only [BitVec.getLsbD_append]
    grind

@[simp] theorem addrBytes_addrAt (bs : List Byte) (k : Nat) : addrBytes (addrAt bs k) =
    [byteAt bs k, byteAt bs (k + 1), byteAt bs (k + 2), byteAt bs (k + 3), byteAt bs (k + 4), byteAt bs (k + 5), byteAt bs (k + 6),
      byteAt bs (k + 7)] := addrBytes_append _ _ _ _ _ _ _ _

theorem flagAt_flagByte (b : Bool) : (flagByte b).getLsbD 0 = b := by cases b <;> rfl

theorem flagByte_high (b : Bool) : (flagByte b).extractLsb' 1 7 = 0#7 := by cases b <;> rfl

theorem flagByte_getLsbD : ∀ b : Byte, b.extractLsb' 1 7 = 0 → flagByte (b.getLsbD 0) = b := by decide

theorem zeroBytes_byte {bs : List Byte} {lo hi : Nat} (h : zeroBytes bs lo hi = true) (k : Nat) (hlo : lo ≤ k) (hhi : k < hi) :
    byteAt bs k = 0 := by
  have hk := List.all_eq_true.mp h (k - lo) (List.mem_range.mpr (by omega))
  rwa [beq_iff_eq, Nat.add_sub_cancel' hlo] at hk

theorem bytes_of_length {bs : List Byte} {n : Nat} (h : bs.length = n) : bs = (List.range n).map (byteAt bs) := by
  apply List.ext_getElem
  · simp [h]
  · intro k hk _
    simp [byteAt, List.getD_eq_getElem?_getD, List.getElem?_eq_getElem hk]

/-- The mask of a LINE_CONFIG record in its two bytes, four zero bits above it (R180). -/
theorem mask_bytes (m : BitVec 12) : (m.setWidth 16).extractLsb' 0 12 = m ∧ ((m.setWidth 16).extractLsb' 8 8).extractLsb' 4 4 = 0#4 := by
  constructor
  all_goals
    apply BitVec.eq_of_getLsbD_eq
    intro k hk
    simp only [BitVec.getLsbD_extractLsb', BitVec.getLsbD_setWidth, BitVec.getLsbD_zero]
    grind

namespace Machine

theorem encodeAdmin_length (tag : Half) (c : AdminCmd) : (encodeAdmin tag c).length = 32 := by cases c <;> rfl

theorem decodeAdmin_encodeAdmin (tag : Half) (c : AdminCmd) : decodeAdmin (encodeAdmin tag c) = some c := by
  cases c with
  | ringCreate ring sizeCode line cls cring base =>
    exact congrArg (fun a => some (AdminCmd.ringCreate ring sizeCode line cls cring a)) (addrAt_bytes base)
  | ringPause | ringResume | ringDelete | cringDelete | poolDelete | lineStart | lineStop | stationDetach => rfl
  | cringCreate ring sizeCode n ie t base =>
    show (if (flagByte ie).extractLsb' 1 7 == 0 && true && true then
      some (AdminCmd.cringCreate ring sizeCode n ((flagByte ie).getLsbD 0) (t.extractLsb' 8 8 ++ t.extractLsb' 0 8)
        (base.extractLsb' 56 8 ++ base.extractLsb' 48 8 ++ base.extractLsb' 40 8 ++ base.extractLsb' 32 8
        ++ base.extractLsb' 24 8 ++ base.extractLsb' 16 8 ++ base.extractLsb' 8 8 ++ base.extractLsb' 0 8)) else none) = _
    rw [flagByte_high, flagAt_flagByte, halfAt_bytes, addrAt_bytes]
    rfl
  | cringPolicy ring n ie t =>
    show (if true && (flagByte ie).extractLsb' 1 7 == 0 && true then
      some (AdminCmd.cringPolicy ring n ((flagByte ie).getLsbD 0) (t.extractLsb' 8 8 ++ t.extractLsb' 0 8)) else none) = _
    rw [flagByte_high, flagAt_flagByte, halfAt_bytes]
    rfl
  | poolCreate sizeCode base => exact congrArg (fun a => some (AdminCmd.poolCreate sizeCode a)) (addrAt_bytes base)
  | lineConfig line f =>
    have hmask := mask_bytes f.mask
    show (if ((f.mask.setWidth 16).extractLsb' 8 8).extractLsb' 4 4 == 0 && true then
      some (AdminCmd.lineConfig line (lineFieldsAt (encodeAdmin tag (.lineConfig line f)))) else none) = _
    rw [hmask.2]
    refine (if_pos rfl).trans (congrArg (fun g => some (AdminCmd.lineConfig line g)) ?_)
    show ({ f with
      mask := ((f.mask.setWidth 16).extractLsb' 8 8 ++ (f.mask.setWidth 16).extractLsb' 0 8).extractLsb' 0 12
      respTimeout := f.respTimeout.extractLsb' 8 8 ++ f.respTimeout.extractLsb' 0 8
      busyHoldOff := f.busyHoldOff.extractLsb' 8 8 ++ f.busyHoldOff.extractLsb' 0 8
      probeInterval := f.probeInterval.extractLsb' 8 8 ++ f.probeInterval.extractLsb' 0 8 } : LineFields) = f
    simp only [halfAt_bytes, hmask.1]
  | stationAttach line addr period => exact congrArg (fun h => some (AdminCmd.stationAttach line addr h)) (halfAt_bytes period)
  | stationScan line addr period => exact congrArg (fun h => some (AdminCmd.stationScan line addr h)) (halfAt_bytes period)
  | stationQuery index clear buf =>
    show (if (flagByte clear).extractLsb' 1 7 == 0 && true && true then
      some (AdminCmd.stationQuery index ((flagByte clear).getLsbD 0)
        (buf.extractLsb' 56 8 ++ buf.extractLsb' 48 8 ++ buf.extractLsb' 40 8 ++ buf.extractLsb' 32 8
        ++ buf.extractLsb' 24 8 ++ buf.extractLsb' 16 8 ++ buf.extractLsb' 8 8 ++ buf.extractLsb' 0 8)) else none) = _
    rw [flagByte_high, flagAt_flagByte, addrAt_bytes]
    rfl
  | lineQuery line part clear buf =>
    show (if (flagByte clear).extractLsb' 1 7 == 0 && true && true then
      some (AdminCmd.lineQuery line part ((flagByte clear).getLsbD 0)
        (buf.extractLsb' 56 8 ++ buf.extractLsb' 48 8 ++ buf.extractLsb' 40 8 ++ buf.extractLsb' 32 8
        ++ buf.extractLsb' 24 8 ++ buf.extractLsb' 16 8 ++ buf.extractLsb' 8 8 ++ buf.extractLsb' 0 8)) else none) = _
    rw [flagByte_high, flagAt_flagByte, addrAt_bytes]
    rfl

/-- The kind byte is the code it reads as. -/
theorem kind_byte {bs : List Byte} {code : Byte} (h : (byteAt bs 2).toNat = code.toNat) : byteAt bs 2 = code := BitVec.eq_of_toNat_eq h

/-- A record's 32 bytes one by one. -/
theorem record_bytes {bs : List Byte} (h : bs.length = 32) : bs =
    [byteAt bs 0, byteAt bs 1, byteAt bs 2, byteAt bs 3, byteAt bs 4, byteAt bs 5, byteAt bs 6, byteAt bs 7,
     byteAt bs 8, byteAt bs 9, byteAt bs 10, byteAt bs 11, byteAt bs 12, byteAt bs 13, byteAt bs 14, byteAt bs 15,
     byteAt bs 16, byteAt bs 17, byteAt bs 18, byteAt bs 19, byteAt bs 20, byteAt bs 21, byteAt bs 22, byteAt bs 23,
     byteAt bs 24, byteAt bs 25, byteAt bs 26, byteAt bs 27, byteAt bs 28, byteAt bs 29, byteAt bs 30, byteAt bs 31] := bytes_of_length h

theorem flagByte_flagAt {bs : List Byte} {k : Nat} (h : flagByteOk bs k = true) : flagByte (flagAt bs k) = byteAt bs k :=
  flagByte_getLsbD _ (beq_iff_eq.mp h)

theorem mask_halfAt {bs : List Byte} {k : Nat} (h : (byteAt bs (k + 1)).extractLsb' 4 4 = 0) :
    halfBytes (((halfAt bs k).extractLsb' 0 12).setWidth 16) = [byteAt bs k, byteAt bs (k + 1)] := by
  rw [← halfBytes_halfAt]
  congr 1
  apply BitVec.eq_of_getLsbD_eq
  intro j hj
  simp only [BitVec.getLsbD_setWidth, BitVec.getLsbD_extractLsb', hj, decide_true, Bool.true_and, Nat.zero_add]
  by_cases hlt : j < 12
  · simp [hlt]
  · have hbit := congrArg (·.getLsbD (j - 12)) h
    simp only [BitVec.getLsbD_extractLsb', show j - 12 < 4 by omega, decide_true, Bool.true_and] at hbit
    simp only [hlt, decide_false, Bool.false_and, halfAt, BitVec.getLsbD_append, show ¬ j < 8 by omega, if_false]
    rw [show j - 8 = 4 + (j - 12) by omega, hbit]
    exact BitVec.getLsbD_zero.symm

/-- A record whose kind, zero bytes 3 to 7 and parameters are a command's is that command's record. -/
theorem encodeAdmin_of_params {bs : List Byte} {c : AdminCmd} (hlen : bs.length = 32) (hz : zeroBytes bs 3 8 = true)
    (hk : byteAt bs 2 = c.code)
    (hp : [byteAt bs 8, byteAt bs 9, byteAt bs 10, byteAt bs 11, byteAt bs 12, byteAt bs 13, byteAt bs 14, byteAt bs 15,
      byteAt bs 16, byteAt bs 17, byteAt bs 18, byteAt bs 19, byteAt bs 20, byteAt bs 21, byteAt bs 22, byteAt bs 23,
      byteAt bs 24, byteAt bs 25, byteAt bs 26, byteAt bs 27, byteAt bs 28, byteAt bs 29, byteAt bs 30, byteAt bs 31] = c.paramBytes) :
    bs = encodeAdmin (halfAt bs 0) c := by
  refine (record_bytes hlen).trans ?_
  rw [encodeAdmin, ← hp, ← hk, halfBytes_halfAt]
  simp [zeroBytes_byte hz, List.replicate]

/-- A record that is read as a command is the bytes of that command: its zero bytes are zero and its fields are its bytes. -/
theorem encodeAdmin_decodeAdmin {bs : List Byte} {c : AdminCmd} (hlen : bs.length = 32) (h : decodeAdmin bs = some c) :
    bs = encodeAdmin (halfAt bs 0) c := by
  unfold decodeAdmin at h
  split at h
  · cases h
  next hz =>
    have hz : zeroBytes bs 3 8 = true := by simpa using hz
    split at h
    · next hk =>
      split at h
      · next hc =>
        cases h
        simp only [Bool.and_eq_true] at hc
        refine encodeAdmin_of_params hlen hz (kind_byte hk) ?_
        simp [AdminCmd.paramBytes, zeroBytes_byte hc.1, zeroBytes_byte hc.2]
      · cases h
    · next hk =>
      split at h
      · next hc =>
        cases h
        refine encodeAdmin_of_params hlen hz (kind_byte hk) ?_
        simp [AdminCmd.paramBytes, zeroBytes_byte hc]
      · cases h
    · next hk =>
      split at h
      · next hc =>
        cases h
        refine encodeAdmin_of_params hlen hz (kind_byte hk) ?_
        simp [AdminCmd.paramBytes, zeroBytes_byte hc]
      · cases h
    · next hk =>
      split at h
      · next hc =>
        cases h
        refine encodeAdmin_of_params hlen hz (kind_byte hk) ?_
        simp [AdminCmd.paramBytes, zeroBytes_byte hc]
      · cases h
    · next hk =>
      split at h
      · next hc =>
        cases h
        simp only [Bool.and_eq_true] at hc
        refine encodeAdmin_of_params hlen hz (kind_byte hk) ?_
        simp [AdminCmd.paramBytes, flagByte_flagAt hc.1.1, zeroBytes_byte hc.1.2, zeroBytes_byte hc.2]
      · cases h
    · next hk =>
      split at h
      · next hc =>
        cases h
        simp only [Bool.and_eq_true] at hc
        refine encodeAdmin_of_params hlen hz (kind_byte hk) ?_
        simp [AdminCmd.paramBytes, zeroBytes_byte hc.1.1, flagByte_flagAt hc.1.2, zeroBytes_byte hc.2]
      · cases h
    · next hk =>
      split at h
      · next hc =>
        cases h
        refine encodeAdmin_of_params hlen hz (kind_byte hk) ?_
        simp [AdminCmd.paramBytes, zeroBytes_byte hc]
      · cases h
    · next hk =>
      split at h
      · next hc =>
        cases h
        simp only [Bool.and_eq_true] at hc
        refine encodeAdmin_of_params hlen hz (kind_byte hk) ?_
        simp [AdminCmd.paramBytes, zeroBytes_byte hc.1.1, zeroBytes_byte hc.1.2, zeroBytes_byte hc.2]
      · cases h
    · next hk =>
      split at h
      · next hc =>
        cases h
        refine encodeAdmin_of_params hlen hz (kind_byte hk) ?_
        simp [AdminCmd.paramBytes, zeroBytes_byte hc]
      · cases h
    · next hk =>
      split at h
      · next hc =>
        cases h
        simp only [Bool.and_eq_true, beq_iff_eq] at hc
        refine encodeAdmin_of_params hlen hz (kind_byte hk) ?_
        simp [AdminCmd.paramBytes, lineFieldBytes, lineFieldsAt, mask_halfAt hc.1, zeroBytes_byte hc.2]
      · cases h
    · next hk =>
      split at h
      · next hc =>
        cases h
        refine encodeAdmin_of_params hlen hz (kind_byte hk) ?_
        simp [AdminCmd.paramBytes, zeroBytes_byte hc]
      · cases h
    · next hk =>
      split at h
      · next hc =>
        cases h
        refine encodeAdmin_of_params hlen hz (kind_byte hk) ?_
        simp [AdminCmd.paramBytes, zeroBytes_byte hc]
      · cases h
    · next hk =>
      split at h
      · next hc =>
        cases h
        refine encodeAdmin_of_params hlen hz (kind_byte hk) ?_
        simp [AdminCmd.paramBytes, zeroBytes_byte hc]
      · cases h
    · next hk =>
      split at h
      · next hc =>
        cases h
        refine encodeAdmin_of_params hlen hz (kind_byte hk) ?_
        simp [AdminCmd.paramBytes, zeroBytes_byte hc]
      · cases h
    · next hk =>
      split at h
      · next hc =>
        cases h
        refine encodeAdmin_of_params hlen hz (kind_byte hk) ?_
        simp [AdminCmd.paramBytes, zeroBytes_byte hc]
      · cases h
    · next hk =>
      split at h
      · next hc =>
        cases h
        simp only [Bool.and_eq_true] at hc
        refine encodeAdmin_of_params hlen hz (kind_byte hk) ?_
        simp [AdminCmd.paramBytes, flagByte_flagAt hc.1.1, zeroBytes_byte hc.1.2, zeroBytes_byte hc.2]
      · cases h
    · next hk =>
      split at h
      · next hc =>
        cases h
        simp only [Bool.and_eq_true] at hc
        refine encodeAdmin_of_params hlen hz (kind_byte hk) ?_
        simp [AdminCmd.paramBytes, flagByte_flagAt hc.1.1, zeroBytes_byte hc.1.2, zeroBytes_byte hc.2]
      · cases h
    · cases h

theorem decodeSub_encodeSub {r : SubRec} (hp : r.params.length = 8) (hf : r.flags.toNat < 8) (hz : r.zerosOk = true) :
    decodeSub (encodeSub r) = r := by
  have hflags : r.flags.extractLsb' 3 5 == 0 := by
    rw [beq_iff_eq]
    apply BitVec.eq_of_toNat_eq
    rw [BitVec.extractLsb'_toNat, Nat.shiftRight_eq_div_pow, Nat.div_eq_of_lt hf]
    rfl
  show ({ r with
    zerosOk := true && r.flags.extractLsb' 3 5 == 0
    params := (List.range 8).map (byteAt r.params)
    buf := r.buf.extractLsb' 56 8 ++ r.buf.extractLsb' 48 8 ++ r.buf.extractLsb' 40 8 ++ r.buf.extractLsb' 32 8
      ++ r.buf.extractLsb' 24 8 ++ r.buf.extractLsb' 16 8 ++ r.buf.extractLsb' 8 8 ++ r.buf.extractLsb' 0 8
    tag := r.tag.extractLsb' 8 8 ++ r.tag.extractLsb' 0 8 } : SubRec) = r
  rw [hflags, ← bytes_of_length hp, halfAt_bytes, addrAt_bytes, Bool.true_and, ← hz]

theorem decodeBoot_encodeBoot {r : BootRec} (hz : r.zerosOk = true) : decodeBoot (encodeBoot r) = r := by
  show ({ r with
    ring0Base := r.ring0Base.extractLsb' 56 8 ++ r.ring0Base.extractLsb' 48 8 ++ r.ring0Base.extractLsb' 40 8
      ++ r.ring0Base.extractLsb' 32 8 ++ r.ring0Base.extractLsb' 24 8 ++ r.ring0Base.extractLsb' 16 8
      ++ r.ring0Base.extractLsb' 8 8 ++ r.ring0Base.extractLsb' 0 8
    intEnable := (flagByte r.intEnable).getLsbD 0
    time := r.time.extractLsb' 8 8 ++ r.time.extractLsb' 0 8
    zerosOk := (flagByte r.intEnable).extractLsb' 1 7 == 0 && true && true
    c0Base := r.c0Base.extractLsb' 56 8 ++ r.c0Base.extractLsb' 48 8 ++ r.c0Base.extractLsb' 40 8 ++ r.c0Base.extractLsb' 32 8
      ++ r.c0Base.extractLsb' 24 8 ++ r.c0Base.extractLsb' 16 8 ++ r.c0Base.extractLsb' 8 8 ++ r.c0Base.extractLsb' 0 8 } : BootRec) = r
  rw [addrAt_bytes, addrAt_bytes, halfAt_bytes, flagAt_flagByte, flagByte_high]
  cases r
  cases hz
  rfl

/-- Settles O51. -/
theorem recordsRoundTrip : Obligations.RecordsRoundTrip :=
  ⟨⟨fun tag c => ⟨encodeAdmin_length tag c, decodeAdmin_encodeAdmin tag c, halfAt_bytes tag⟩, fun _ _ => encodeAdmin_decodeAdmin⟩,
    fun _ hp hf hz => ⟨rfl, decodeSub_encodeSub hp hf hz⟩, fun _ hz => ⟨rfl, decodeBoot_encodeBoot hz⟩⟩

/-! ## The record of ring 0 (R128, R153, R155) -/

open Sys2Proof.Claims

theorem fitBytes_of_length {bs : List Byte} {n : Nat} (h : bs.length = n) : fitBytes n bs = bs := (bytes_of_length h).symm

theorem State.adminReading_iff (s : State) :
    s.adminReading = true ↔ (s.device = .running ∨ s.device = .disabling) ∧ s.admin.phase = .reading := by
  simp [State.adminReading, State.working, and_comm]

theorem exec_adminRecordRead {s : State} {bs : List Byte} (h : bs.length = 32) :
    exec (.adminRecordRead (.ok bs)) s = .next (s.takeAdmin bs (decodeAdmin bs)).react := by
  show Host.Outcome.next (s.takeAdmin (fitBytes 32 bs) (decodeAdmin (fitBytes 32 bs))).react = _
  rw [fitBytes_of_length h]

/-- Settles O15. -/
theorem adminRecordsAreTakenByTheirBytes : Obligations.AdminRecordsAreTakenByTheirBytes := by
  refine fun s => ⟨fun tag c => ?_, fun bs hlen hr hno => ?_, fun bs hlen hd hp => ?_, fun hd hp => ?_⟩
  · rw [exec_adminRecordRead (encodeAdmin_length tag c), exec_adminInstr, decodeAdmin_encodeAdmin]
    rfl
  · have hnone : decodeAdmin bs = none := by
      cases h : decodeAdmin bs with
      | none => rfl
      | some c => exact absurd (encodeAdmin_decodeAdmin hlen h) (hno _ _)
    refine leads_of_eq (exec_adminRecordRead hlen) ?_
    rw [hnone, State.takeAdmin, if_pos (s.adminReading_iff.mpr ⟨.inl hr.1, hr.2⟩)]
    exact if_neg (by simp [hr.1])
  · refine leads_of_eq (exec_adminRecordRead hlen) ?_
    rw [State.takeAdmin, if_pos (s.adminReading_iff.mpr ⟨.inr hd, hp⟩)]
    exact if_pos hd
  · have hfault := faultedFrom_deviceFault s .ringRead
    refine ⟨_, next_of_not_working rfl (if_pos (s.adminReading_iff.mpr ⟨hd, hp⟩)) ?_, hfault⟩
    simp [State.working, hfault.device.1]

end Machine

end Sys2Proof

/-! # Queries and the records the part writes (sections 9.9, 11.3, 11.4) -/

namespace Sys2Proof.Machine

open Sys2Proof.Claims

/-! ## Queries (R170) -/

theorem stationReport_length (now : Nat) (e : EntryId) (x : Station) : (stationReport now e x).length = 32 := rfl

theorem lineReport_length (l : LineId) (x : Line) (part : Nat) : (lineReport l x part).length = 32 := by
  unfold lineReport
  split
  · cases h : x.config <;> rfl
  all_goals rfl

theorem State.adminReport_eq (s : State) {report : List Byte} (hlen : report.length = 32) (buf : Addr) : s.adminReport report buf =
    { s with admin :=
        if buf.toNat + 32 ≤ 2 ^ 64 then ⟨.reporting, s.admin.command.map fun c => { c with report := report }, false, none⟩
        else ⟨.completing, s.admin.command.map fun c => { c with report := report, wait := none, result := some (.hostWriteError, 0) },
          false, none⟩ } := by
  have hok : rangeOk buf report.length = true ↔ buf.toNat + 32 ≤ 2 ^ 64 := by
    rw [hlen, rangeOk, decide_eq_true_iff]
    omega
  unfold State.adminReport State.adminDecide
  split
  · next h => rw [if_pos (hok.mp h)]
  · next h =>
    rw [if_neg (mt hok.mpr h)]
    cases s.admin.command <;> rfl

theorem State.reportWriteEnds_ok {s : State} {c : AdminCommand} (hw : s.working = true) (hp : s.admin.phase = .reporting)
    (hc : s.admin.command = some c) :
    s.reportWriteEnds .ok = (s.hostWrite (addrAt c.record 16).toNat c.report).adminDecide .ok 32 := by
  rw [State.reportWriteEnds, if_pos hw, hp, hc]

theorem State.reportWriteEnds_error {s : State} {c : AdminCommand} (hw : s.working = true) (hp : s.admin.phase = .reporting)
    (hc : s.admin.command = some c) (landed : List Bool) : s.reportWriteEnds (.error landed) =
      (s.hostWriteMasked (addrAt c.record 16).toNat c.report landed).adminDecide .hostWriteError 0 := by
  rw [State.reportWriteEnds, if_pos hw, hp, hc]

/-- Settles O25. -/
theorem queriesComposeTheirReports : Obligations.QueriesComposeTheirReports := by
  refine ⟨fun s tag clear buf => ⟨fun e x hx => ?_, fun l part => ?_⟩, fun s c hc hw hp => ⟨?_, fun landed => ?_⟩⟩
  · intro c h
    refine passes_leads h ?_
    show State.adminStationQuery _ _ _ _ = _
    rw [State.adminStationQuery, entryOf_ofNat]
    dsimp only
    rw [show (s.adminTaken (encodeAdmin tag c)).station e = some x from hx]
    dsimp only
    rw [State.adminReport_eq _ (stationReport_length _ _ _)]
    cases clear <;> rfl
  · intro c h
    refine passes_leads h ?_
    have hpart : ¬ 2 < part.toNat := fun e => h.2.1 (.inr e)
    show State.adminLineQuery _ _ _ _ _ = _
    rw [State.adminLineQuery, lineOf_ofNat]
    dsimp only
    rw [if_neg hpart, State.adminReport_eq _ (lineReport_length _ _ _)]
    cases clear <;> rfl
  · obtain ⟨t, ht, hu⟩ := leads_of_eq (i := .reportWrite .ok) (s := s) rfl
      (State.reportWriteEnds_ok ((works_iff s).mp hw) hp (Option.mem_def.mp hc))
    refine ⟨_, t, ht, written_memWrite _ _ _, ?_⟩
    simpa only [State.hostWrite, State.adminDecide, Option.mem_def.mp hc, Option.map_some] using hu
  · obtain ⟨t, ht, hu⟩ := leads_of_eq (i := .reportWrite (.error landed)) (s := s) rfl
      (State.reportWriteEnds_error ((works_iff s).mp hw) hp (Option.mem_def.mp hc) landed)
    refine ⟨_, t, ht, partlyWritten_memWriteMasked _ _ _ _, ?_⟩
    simpa only [State.hostWriteMasked, State.adminDecide, Option.mem_def.mp hc, Option.map_some] using hu

/-! ## Reports by their bytes (section 11.4) -/

theorem half_leBytes (v : Nat) : (BitVec.ofNat 8 (v / 256) ++ BitVec.ofNat 8 v : Half) = BitVec.ofNat 16 v := by
  apply BitVec.eq_of_toNat_eq
  rw [toNat_append_add]
  simp only [BitVec.toNat_ofNat]
  omega

theorem word_leBytes (v : Nat) : (BitVec.ofNat 16 (v / 256 / 256) ++ BitVec.ofNat 16 v : Word) = BitVec.ofNat 32 v := by
  apply BitVec.eq_of_toNat_eq
  simp only [toNat_append_add, BitVec.toNat_ofNat]
  omega

theorem bitAt_getLsbD (k : Nat) (b : Bool) (j : Nat) (hk : k < 8) : (bitAt k b).getLsbD j = (j == k && b) := by
  unfold bitAt
  cases b with
  | false => simp
  | true =>
    by_cases h : j = k
    · subst h; simp [hk]
    · have h' : ¬ k = j := fun e => h e.symm
      simp [h, h']

theorem ofNat8_toNat {n : Nat} (h : n ≤ 256) (i : Fin n) : (BitVec.ofNat 8 i.val).toNat = i.val := by
  rw [BitVec.toNat_ofNat]
  exact Nat.mod_eq_of_lt (i.isLt.trans_le h)

theorem stationStateCode_some (x : StationState) : stationStateCode (some x) =
    (match x with | .new => 1 | .online => 2 | .suspect => 3 | .offline => 4 | .detaching => 5) := by cases x <;> rfl

theorem lastKindCode_eq (k : Option RespKind) : lastKindCode k =
    (match k with
      | none => 0 | some .done => 1 | some .data => 2 | some .empty => 3 | some .busy => 4 | some .refused => 5) := by
  unfold lastKindCode
  split <;> rfl

theorem lineFaultCode_eq (f : Option LineFault) : lineFaultCode f =
    (match f with | none => 0 | some .notQuiet => 1 | some .stuck => 2 | some .conflict => 3) := by
  unfold lineFaultCode
  split <;> rfl

theorem phaseCode_eq (p : Option Phase) : phaseCode p =
    (match p with
      | none => 0 | some .idle => 1 | some .lead => 2 | some .sending => 3 | some .awaiting => 4 | some .receiving => 5
      | some .settle => 6) := by
  unfold phaseCode
  split <;> rfl

theorem stationReport_fields (now : Nat) (e : EntryId) (x : Station) : let b := stationReport now e x
    b.length = 32
    ∧ (byteAt b 0).toNat = e.val ∧ (byteAt b 1).toNat = x.line.val ∧ byteAt b 2 = BitVec.ofNat 8 x.addr
    ∧ byteAt b 3 = (match x.state with | .new => 1 | .online => 2 | .suspect => 3 | .offline => 4 | .detaching => 5)
    ∧ (∀ k, (byteAt b 4).getLsbD k = ((k == 0 && x.toggle) || (k == 1 && x.syncNeeded) || (k == 2 && x.redelivery)
        || (k == 3 && x.noticePending)))
    ∧ byteAt b 5 = BitVec.ofNat 8 x.failureCount ∧ byteAt b 6 = BitVec.ofNat 8 x.changes
    ∧ byteAt b 7 = (match x.lastKind with
        | none => 0 | some .done => 1 | some .data => 2 | some .empty => 3 | some .busy => 4 | some .refused => 5)
    ∧ halfAt b 8 = BitVec.ofNat 16 x.scanPeriod
    ∧ halfAt b 10 = BitVec.ofNat 16 (match x.holdUntil with | some t => t - now | none => 0)
    ∧ halfAt b 12 = BitVec.ofNat 16 (x.nextDue - now) ∧ halfAt b 14 = 0
    ∧ halfAt b 18 ++ halfAt b 16 = BitVec.ofNat 32 x.exchanges ∧ halfAt b 20 = BitVec.ofNat 16 x.failures
    ∧ halfAt b 22 = BitVec.ofNat 16 x.busy ∧ halfAt b 24 = BitVec.ofNat 16 x.redeliveries
    ∧ halfAt b 26 = BitVec.ofNat 16 x.losses ∧ halfAt b 28 = 0 ∧ halfAt b 30 = 0 := by
  intro b
  have hb : b = stationReport now e x := rfl
  simp only [hb, stationReport, leBytes, List.cons_append, List.nil_append, byteAt, halfAt, List.getD_cons_succ, List.getD_cons_zero,
    half_leBytes, word_leBytes, stationStateCode_some, lastKindCode_eq, ofNat8_toNat (show 128 ≤ 256 by decide),
    ofNat8_toNat (show 8 ≤ 256 by decide), msUntil, true_and, List.length_cons, List.length_nil]
  refine ⟨fun k => ?_, ?_⟩
  · simp [bitAt_getLsbD]
  · and_intros <;> rfl

theorem RunState.code_eq (r : RunState) : r.code =
    (match r with | .stopped => 0 | .starting => 1 | .running => 2 | .stopping => 3 | .faulted => 4) := by cases r <;> rfl

theorem Mode.code_eq (m : Mode) : m.code = (match m with | .async => 0 | .clocked => 1) := by cases m <;> rfl

theorem Parity.code_eq (p : Parity) : p.code = (match p with | .none => 0 | .even => 1 | .odd => 2) := by cases p <;> rfl

theorem noticeRingCode_toNat (r : Option CRingId) : (noticeRingCode r).toNat = (match r with | none => 4 | some r => r.val) := by
  cases r with
  | none => rfl
  | some r => exact ofNat8_toNat (by decide) r

/-- The configuration record of a line report, or zeros. -/
theorem configReport_fields (g : Option LineConfig) : let b := configReport g
    (g = none → ∀ k < 20, byteAt b k = 0)
    ∧ ∀ c ∈ g,
      byteAt b 0 = (match c.mode with | .async => 0 | .clocked => 1) ∧ byteAt b 1 = BitVec.ofNat 8 c.rate
      ∧ byteAt b 2 = (match c.parity with | .none => 0 | .even => 1 | .odd => 2)
      ∧ byteAt b 3 = BitVec.ofNat 8 c.stopBits ∧ byteAt b 4 = BitVec.ofNat 8 c.lead
      ∧ byteAt b 5 = BitVec.ofNat 8 c.gapLimit ∧ byteAt b 6 = BitVec.ofNat 8 c.settle
      ∧ byteAt b 7 = BitVec.ofNat 8 c.suspectAfter ∧ byteAt b 8 = BitVec.ofNat 8 c.offlineAfter
      ∧ byteAt b 9 = BitVec.ofNat 8 c.busyLimit
      ∧ (byteAt b 10).toNat = (match c.noticeRing with | none => 4 | some r => r.val) ∧ byteAt b 11 = 0
      ∧ halfAt b 12 = BitVec.ofNat 16 c.respTimeout ∧ halfAt b 14 = BitVec.ofNat 16 c.busyHoldOff
      ∧ halfAt b 16 = BitVec.ofNat 16 c.probeInterval ∧ halfAt b 18 = 0 := by
  intro b
  have hb : b = configReport g := rfl
  rw [hb]
  cases g with
  | none =>
    refine ⟨fun _ => ?_, nofun⟩
    decide
  | some c =>
    refine ⟨nofun, ?_⟩
    rintro c ⟨⟩
    simp only [configReport, leBytes, List.cons_append, List.nil_append, byteAt, halfAt, List.getD_cons_succ, List.getD_cons_zero,
      half_leBytes, Mode.code_eq, Parity.code_eq, noticeRingCode_toNat, true_and]
    rfl

/-- Settles O26. -/
theorem reportsCarryTheFields : Obligations.ReportsCarryTheFields := by
  refine ⟨stationReport_fields, fun l x => ?_⟩
  intro b d f word n
  obtain ⟨hnone, hsome⟩ := configReport_fields x.config
  have hbyte : ∀ k, byteAt b (k + 12) = byteAt (configReport x.config) k := fun _ => rfl
  have hhalf : ∀ k, halfAt b (k + 12) = halfAt (configReport x.config) k := fun _ => rfl
  refine ⟨lineReport_length _ _ _, rfl, rfl, ofNat8_toNat (by decide) l, rfl, RunState.code_eq _, lineFaultCode_eq _, lineFaultCode_eq _,
    phaseCode_eq _, rfl, fun k => ?_, rfl, rfl, (by decide : (0#8 ++ 0#8 : Half) = 0), fun h k hk => ?_, fun c hc => ?_, ?_, ?_⟩
  · show (bitAt 0 x.linePending ||| bitAt 1 x.config.isSome).getLsbD k = _
    simp [bitAt_getLsbD]
  · rw [Nat.add_comm, hbyte]
    exact hnone h k hk
  · exact hsome c hc
  · simp only [word, d, lineReport, leBytes, List.cons_append, List.nil_append, byteAt, halfAt, List.getD_cons_succ, List.getD_cons_zero,
      half_leBytes, word_leBytes, List.map_cons, List.map_nil]
    rfl
  · simp only [word, f, lineReport, leBytes, List.cons_append, List.nil_append, byteAt, halfAt, List.getD_cons_succ, List.getD_cons_zero,
      half_leBytes, word_leBytes, List.map_cons, List.map_nil]
    rfl

/-! ## The completion record (section 11.3) -/

theorem nibbles_low (lo hi : Nat) : (nibbles lo hi).extractLsb' 0 4 = BitVec.ofNat 4 lo := by
  apply BitVec.eq_of_getLsbD_eq
  intro k hk
  simp only [nibbles, BitVec.getLsbD_extractLsb', BitVec.getLsbD_append]
  grind

theorem nibbles_high (lo hi : Nat) : (nibbles lo hi).extractLsb' 4 4 = BitVec.ofNat 4 hi := by
  apply BitVec.eq_of_getLsbD_eq
  intro k hk
  simp only [nibbles, BitVec.getLsbD_extractLsb', BitVec.getLsbD_append]
  grind

theorem CompKind.code_eq (k : CompKind) : BitVec.ofNat 4 k.code.toNat =
    (match k with | .txn => 1#4 | .admin => 2#4 | .scanData => 3#4 | .stationNotice => 4#4 | .lineNotice => 5#4) := by cases k <;> rfl

theorem stationStateCode_nibble (st : Option StationState) : BitVec.ofNat 4 (stationStateCode st).toNat =
    (match st with
      | none => 0#4 | some .new => 1#4 | some .online => 2#4 | some .suspect => 3#4 | some .offline => 4#4 | some .detaching => 5#4) := by
  unfold stationStateCode
  split <;> rfl

theorem Status.code_eq (st : Status) : st.code =
    (match st with
      | .ok => 0 | .refused => 1 | .overlength => 2 | .hostWriteError => 3 | .hostReadError => 4 | .stationBusy => 5
      | .noResponse => 6 | .lineError => 7 | .stationOffline => 8 | .noStation => 9 | .detached => 10 | .badRecord => 11
      | .aborted => 12 | .lineFault => 13 | .badParam => 14 | .wrongState => 15 | .noRoom => 16 | .notFound => 17
      | .inUse => 18) := by cases st <;> rfl

theorem Detail.code_eq (d : Detail) : d.code =
    (match d with
      | .none => 0 | .cause .timeout => 1 | .cause .check => 2 | .cause .parity => 3 | .cause .framing => 4
      | .cause .truncated => 5 | .cause .protocol => 6 | .cause .toggle => 7 | .cause .conflict => 8 | .synced => 9) := by
  cases d with
  | none => rfl
  | cause c => cases c <;> rfl
  | synced => rfl

/-- The low 56 bits of an address are the first seven of its bytes. -/
theorem low_addr (a : BitVec 56) (b : Byte) : let x := a.setWidth 64
    (b ++ x.extractLsb' 48 8 ++ x.extractLsb' 40 8 ++ x.extractLsb' 32 8 ++ x.extractLsb' 24 8 ++ x.extractLsb' 16 8 ++ x.extractLsb' 8 8
      ++ x.extractLsb' 0 8 : Addr).extractLsb' 0 56 = a := by
  intro x
  apply BitVec.eq_of_getLsbD_eq
  intro k hk
  simp only [x, BitVec.getLsbD_extractLsb', BitVec.getLsbD_append, BitVec.getLsbD_setWidth]
  grind

theorem compRecord_fields (r : CompRecord) (pass : Bool) : let b := r.bytes pass
    b.length = 16 ∧ halfAt b 0 = r.tag ∧ byteAt b 5 = r.addr ∧ byteAt b 3 = r.status.code
    ∧ byteAt b 2 = nibbles r.kind.code.toNat (stationStateCode r.state).toNat ∧ byteAt b 4 = nibbles r.source r.attempts
    ∧ byteAt b 6 = BitVec.ofNat 8 r.respLen ∧ byteAt b 7 = BitVec.ofNat 8 r.busy ∧ byteAt b 15 = flagByte pass
    ∧ (r.kind ≠ .scanData → byteAt b 8 = r.detail ∧ halfAt b 9 = r.result ∧ ∀ k < 4, byteAt b (11 + k) = 0)
    ∧ (r.kind = .scanData → (addrAt b 8).extractLsb' 0 56 = r.buffer) := by
  intro b
  have hb : b = r.bytes pass := rfl
  rw [hb]
  obtain ⟨kind, tag, state, status, source, attempts, addr, respLen, busy, detail, result, buffer⟩ := r
  cases kind with
  | scanData =>
    exact ⟨rfl, halfAt_bytes tag, rfl, rfl, rfl, rfl, rfl, rfl, rfl, fun h => absurd rfl h, fun _ => low_addr buffer _⟩
  | txn | admin | stationNotice | lineNotice =>
    refine ⟨rfl, halfAt_bytes tag, rfl, rfl, rfl, rfl, rfl, rfl, rfl, fun _ => ⟨rfl, halfAt_bytes result, fun k hk => ?_⟩, nofun⟩
    match k, hk with
    | 0, _ => rfl
    | 1, _ => rfl
    | 2, _ => rfl
    | 3, _ => rfl

/-- An index that a byte names is found among the indices. -/
theorem find_named {n : Nat} (b : Byte) : (List.finRange n).find? (·.val == b.toNat) = indexOf n b := by
  cases h : indexOf n b with
  | none =>
    rw [List.find?_eq_none]
    intro i _
    have := indexOf_eq_none.mp h
    simp only [beq_iff_eq]
    omega
  | some i =>
    have hi := indexOf_some.mp h
    rw [List.find?_eq_some_iff_getElem]
    refine ⟨by simp [hi], i.val, by simp, by simp, fun j hj => ?_⟩
    simp only [List.getElem_finRange, Fin.val_cast, hi, Bool.not_eq_true', beq_eq_false_iff_ne]
    omega

/-- The station entry that a station command's record names, and its address (R154). -/
theorem adminRecord_encodeAdmin (s : State) (tag : Half) (c : AdminCmd) : let named : Option (Byte × Option Station) := match c with
      | .stationAttach line addr _ => some (addr, ((List.finRange 8).find? (·.val == line.toNat)).bind (s.keyed · addr.toNat))
      | .stationDetach line addr => some (addr, ((List.finRange 8).find? (·.val == line.toNat)).bind (s.keyed · addr.toNat))
      | .stationScan line addr _ => some (addr, ((List.finRange 8).find? (·.val == line.toNat)).bind (s.keyed · addr.toNat))
      | .stationQuery index _ _ =>
        let x := ((List.finRange 128).find? (·.val == index.toNat)).bind s.station
        some (BitVec.ofNat 8 ((x.map (·.addr)).getD 0), x)
      | _ => none
    s.adminStation (encodeAdmin tag c) = named.bind (·.2) ∧ s.adminAddr (encodeAdmin tag c) = (named.map (·.1)).getD 0 := by
  intro named
  cases c with
  | stationQuery index clear buf =>
    have hst : s.adminStation (encodeAdmin tag (.stationQuery index clear buf)) = (indexOf 128 index).bind s.station := rfl
    have haddr : s.adminAddr (encodeAdmin tag (.stationQuery index clear buf)) =
        (match s.adminStation (encodeAdmin tag (.stationQuery index clear buf)) with
          | some x => BitVec.ofNat 8 x.addr
          | none => 0) := rfl
    simp only [named, find_named]
    rw [haddr, hst]
    cases (indexOf 128 index).bind s.station with
    | none => exact ⟨rfl, rfl⟩
    | some x => exact ⟨rfl, rfl⟩
  | stationAttach line addr period =>
    simp only [named, find_named]
    exact ⟨rfl, rfl⟩
  | stationDetach line addr =>
    simp only [named, find_named]
    exact ⟨rfl, rfl⟩
  | stationScan line addr period =>
    simp only [named, find_named]
    exact ⟨rfl, rfl⟩
  | _ => exact ⟨rfl, rfl⟩

/-- Settles O52. -/
theorem completionRecordLayout : Obligations.CompletionRecordLayout := by
  refine ⟨fun r pass => ?_, fun s l i x hx o ho => ?_, fun s tag c k hk st v hrec hres => ?_, fun s l d hd st hst b hb => ?_,
    fun s l e rest x hx hp hq => ?_, fun s l hp => ?_⟩
  · obtain ⟨hlen, htag, haddr, hst, hkind, hsource, hresp, hbusy, hpass, hrest⟩ := compRecord_fields r pass
    dsimp only
    rw [hkind, hsource, hst, hpass, nibbles_low, nibbles_high, nibbles_low, nibbles_high, CompKind.code_eq, stationStateCode_nibble,
      Status.code_eq]
    exact ⟨hlen, htag, haddr, rfl, rfl, rfl, rfl, rfl, hresp, hbusy, by cases pass <;> rfl, hrest⟩
  · show (s.slot l i).map (s.txnRecord l) = _
    rw [Option.mem_def.mp hx, Option.map_some, State.txnRecord, Option.mem_def.mp ho, Nat.min_comm]
    simp only [Option.getD_some, Detail.code_eq]
    rfl
  · obtain ⟨hstation, haddr⟩ := adminRecord_encodeAdmin s tag c
    show s.admin.command.map s.adminRecord = _
    rw [Option.mem_def.mp hk, Option.map_some, State.adminRecord, hrec, hres, hstation, haddr]
    have htag : halfAt (encodeAdmin tag c) 0 = tag := halfAt_bytes tag
    rw [htag]
    rfl
  · show (s.line l).scanner.delivery.map (scanDataRecord l) = _
    rw [Option.mem_def.mp hd, Option.map_some, scanDataRecord, Option.mem_def.mp hst, Option.mem_def.mp hb,
      BitVec.setWidth_eq_extractLsb' (by decide)]
    rfl
  · have hno : ¬ (s.line l).linePending = true := by simp [hp]
    rw [State.takeNotice, if_neg hno, hq]
    dsimp only
    rw [Option.mem_def.mp hx]
    rfl
  · rw [State.takeNotice, if_pos hp]
    show some (lineNoticeRecord l (s.line l)) = _
    rw [lineNoticeRecord, lineFaultCode_eq, RunState.code_eq]
    congr 2
    cases (s.line l).run <;> rfl

end Sys2Proof.Machine

/-! # The ends of host-bus operations (chapters 3, 5, 6, 8 and 10)

A slot put in its place, and what the end of each read and write of host memory leads to. -/

namespace Sys2Proof

theorem vput_vput {α : Type} {n : Nat} (v : Vector α n) (i : Fin n) (x y : α) : vput (vput v i x) i y = vput v i y := by simp [vput]

theorem vput_vget {α : Type} {n : Nat} (v : Vector α n) (i : Fin n) : vput v i (vget v i) = v := by simp [vput, vget]

end Sys2Proof

namespace Sys2Proof.Machine

open Sys2Proof.Claims

/-! ## One slot of one line -/

/-- The state with slot `i` of line `l` replaced. -/
def State.putSlot (s : State) (l : LineId) (i : SlotId) (y : Option Slot) : State := s.setLine l ((s.line l).setSlot i y)

theorem State.setLine_setLine (s : State) (l : LineId) (x y : Line) : (s.setLine l x).setLine l y = s.setLine l y := by
  unfold State.setLine
  rw [vput_vput]

theorem Line.setSlot_setSlot (x : Line) (i : SlotId) (y z : Option Slot) : (x.setSlot i y).setSlot i z = x.setSlot i z := by
  unfold Line.setSlot
  rw [vput_vput]

@[simp] theorem State.slot_putSlot (s : State) (l : LineId) (i : SlotId) (y : Option Slot) : (s.putSlot l i y).slot l i = y := by
  unfold State.slot State.putSlot
  rw [State.line_setLine_same, Line.slot_setSlot_same]

@[simp] theorem State.line_putSlot (s : State) (l : LineId) (i : SlotId) (y : Option Slot) :
    (s.putSlot l i y).line l = (s.line l).setSlot i y := State.line_setLine_same _ _ _

theorem State.putSlot_putSlot (s : State) (l : LineId) (i : SlotId) (y z : Option Slot) :
    (s.putSlot l i y).putSlot l i z = s.putSlot l i z := by
  show (s.setLine l _).setLine l (((s.putSlot l i y).line l).setSlot i z) = _
  rw [State.setLine_setLine, State.line_putSlot, Line.setSlot_setSlot]
  rfl

theorem State.modSlot_eq {s : State} {l : LineId} {i : SlotId} {x : Slot} (hx : s.slot l i = some x) (f : Slot → Slot) :
    s.modSlot l i f = s.putSlot l i (some (f x)) := by
  show s.setLine l ((s.line l).setSlot i ((s.slot l i).map f)) = _
  rw [hx]
  rfl

theorem State.modSlot_putSlot (s : State) (l : LineId) (i : SlotId) (x : Slot) (f : Slot → Slot) :
    (s.putSlot l i (some x)).modSlot l i f = s.putSlot l i (some (f x)) := by
  rw [State.modSlot_eq (State.slot_putSlot _ _ _ _), State.putSlot_putSlot]

theorem State.enterReady_eq {s : State} {l : LineId} {i : SlotId} {x : Slot} (hx : s.slot l i = some x) :
    s.enterReady l i = s.putSlot l i (some (x.enterReady (s.line l).gracefulStop (s.keyed l x.addr))) := by
  rw [State.enterReady, hx]
  exact State.modSlot_eq hx _

theorem State.enterReady_putSlot (s : State) (l : LineId) (i : SlotId) (x : Slot) :
    (s.putSlot l i (some x)).enterReady l i = s.putSlot l i (some (x.enterReady (s.line l).gracefulStop (s.keyed l x.addr))) := by
  rw [State.enterReady_eq (State.slot_putSlot _ _ _ _), State.putSlot_putSlot, State.line_putSlot]
  rfl

theorem Line.gracefulStop_iff (x : Line) : x.gracefulStop = true ↔ x.run = .stopping ∧ x.abortStop = false := by
  simp [Line.gracefulStop]

/-- A slot with no outcome that would enter READY goes where R49 and R166 put it. -/
theorem enteredReady_enterReady (s : State) (l : LineId) {x : Slot} (hx : x.outcome = none) :
    EnteredReady s l (x.enterReady (s.line l).gracefulStop (s.keyed l x.addr)) := by
  have haddr : ∀ g st, (x.enterReady g st).addr = x.addr := fun g st => by
    unfold Slot.enterReady
    split
    · rfl
    · split
      · rfl
      · split <;> rfl
  have hblocked : ∀ st : Station, st.blocked = true ↔ st.holdUntil.isSome = true ∨ st.redelivery = true := fun st => by
    simp [Station.blocked]
  unfold EnteredReady
  rw [haddr, ← Line.gracefulStop_iff]
  cases hst : s.keyed l x.addr with
  | none => exact ⟨nofun, nofun, fun _ => ⟨rfl, hx⟩⟩
  | some st =>
    refine ⟨?_, ?_, nofun⟩
    · rintro st ⟨⟩ hg hr
      have h : ((s.line l).gracefulStop && st.redelivery) = true := by simp [hg, hr]
      show Finished (if _ then _ else _) _
      rw [if_pos h]
      exact ⟨rfl, rfl⟩
    · rintro st ⟨⟩ hno
      have h : ¬ ((s.line l).gracefulStop && st.redelivery) = true := by simpa using hno
      show Slot.outcome (if _ then _ else _) = none ∧ Slot.state (if _ then _ else _) = _
      rw [if_neg h]
      split
      · next hb => exact ⟨hx, (if_pos ((hblocked st).mp hb)).symm⟩
      · next hb => exact ⟨hx, (if_neg (mt (hblocked st).mpr hb)).symm⟩

/-- Entering READY decides a slot's state and outcome alone. -/
theorem Slot.enterReady_eq (g : Bool) (st : Option Station) (x : Slot) :
    x.enterReady g st = { x with state := (x.enterReady g st).state, outcome := (x.enterReady g st).outcome } := by
  unfold Slot.enterReady
  split
  · rfl
  · split
    · rfl
    · split <;> rfl

/-! ## The bootstrap record read (R173) -/

theorem bootValid_iff (bs : List Byte) : BootValid bs ↔ (decodeBoot bs).valid = true := by
  have hflag : (byteAt bs 11).toNat ≤ 1 ↔ flagByteOk bs 11 = true := by
    have h : ∀ b : Byte, b.toNat ≤ 1 ↔ (b.extractLsb' 1 7 == 0) = true := by decide
    exact h _
  have hzero : (∀ k, k ∈ [14, 15, 24, 25, 26, 27, 28, 29, 30, 31] → byteAt bs k = 0) ↔ zeroBytes bs 14 16 = true ∧ zeroBytes bs 24 32 = true := by
    constructor
    · intro h
      simp [zeroBytes, List.range_succ, h]
    · rintro ⟨h1, h2⟩ k hk
      have hrange : 14 ≤ k ∧ k < 16 ∨ 24 ≤ k ∧ k < 32 := by
        simp only [List.mem_cons, List.not_mem_nil, or_false] at hk
        omega
      rcases hrange with ⟨hlo, hhi⟩ | ⟨hlo, hhi⟩
      · exact zeroBytes_byte h1 k hlo hhi
      · exact zeroBytes_byte h2 k hlo hhi
  have hpos : byteAt bs 10 ≠ 0 ↔ 1 ≤ (byteAt bs 10).toNat := by
    rw [Ne, byte_eq_zero]
    omega
  rw [BootValid, hflag, hzero, hpos, ← ringGeometryOk_iff (by decide), ← ringGeometryOk_iff (by decide)]
  rw [BootRec.valid]
  simp only [Bool.and_eq_true, decide_eq_true_eq]
  simp only [decodeBoot, Bool.and_eq_true, and_assoc]

/-- Settles O28. -/
theorem bootstrapReadStartsOrFaultsThePart : Obligations.BootstrapReadStartsOrFaultsThePart := by
  intro s hd
  have hread : ∀ r, s.bootReadEnds r = match r with
      | .error => s.deviceFault .bootRead
      | .ok bs => if (decodeBoot bs).valid then s.loadSucceeds (decodeBoot bs) else s.deviceFault .badBoot := fun r => if_pos hd
  have hfault : ∀ code, (s.deviceFault code).working = false := fun code => by
    simp [State.working, (faultedFrom_deviceFault s code).device.1]
  refine ⟨fun bs hv => ?_, fun bs hv => ?_, ?_⟩
  · exact leads_of_eq rfl ((hread _).trans (if_pos ((bootValid_iff bs).mp hv)))
  · exact ⟨_, next_of_not_working rfl ((hread _).trans (if_neg (mt (bootValid_iff bs).mpr hv))) (hfault _), faultedFrom_deviceFault _ _⟩
  · exact ⟨_, next_of_not_working rfl (hread _) (hfault _), faultedFrom_deviceFault _ _⟩

/-- Settles O29. -/
theorem structuralBusErrorsFaultThePart : Obligations.StructuralBusErrorsFaultThePart := by
  intro s hw
  have hw := (works_iff s).mp hw
  have hfault : ∀ (u : State) code, (u.deviceFault code).working = false := fun u code => by
    simp [State.working, (faultedFrom_deviceFault u code).device.1]
  refine ⟨fun l hr => ?_, fun l d hd hst hb => ?_, fun r c hc w hwr landed => ?_⟩
  · obtain ⟨rd, hrd⟩ := Option.ne_none_iff_exists'.mp hr
    refine ⟨_, next_of_not_working rfl ?_ (hfault _ _), faultedFrom_deviceFault s .ringRead⟩
    rw [State.recordReadEnds, if_pos hw, hrd]
  · refine ⟨_, next_of_not_working rfl ?_ (hfault _ _), faultedFrom_deviceFault s .poolRead⟩
    have hdel : s.deliveryOf l = some d := by
      rw [State.deliveryOf, if_pos (by simp [hw, hst])]
      exact hd
    rw [State.poolReadEnds, hdel]
    dsimp only
    rw [hb]
  · refine ⟨_, _, next_of_not_working rfl ?_ (hfault _ _), partlyWritten_memWriteMasked _ _ _ landed, faultedFrom_deviceFault _ .compWrite⟩
    rw [State.completionEnds, if_pos hw, Option.mem_def.mp hc]
    dsimp only
    rw [Option.mem_def.mp hwr]
    rfl

/-! ## Record reads (R42 to R45) -/

theorem formRight_iff (r : SubRec) : FormRight r ↔ r.formOk = true := by
  have ho : r.outLen = 0 ↔ r.outLen.toNat = 0 := BitVec.toNat_eq
  have hi : r.inLimit = 0 ↔ r.inLimit.toNat = 0 := BitVec.toNat_eq
  have hp : r.paramCount = 0 ↔ r.paramCount.toNat = 0 := BitVec.toNat_eq
  have hkind : 1 ≤ r.kind.toNat ∧ r.kind.toNat ≤ 4 ↔ r.kind = 1 ∨ r.kind = 2 ∨ r.kind = 3 ∨ r.kind = 4 := by
    have h : ∀ b : Byte, 1 ≤ b.toNat ∧ b.toNat ≤ 4 ↔ b = 1 ∨ b = 2 ∨ b = 3 ∨ b = 4 := by decide
    exact h _
  by_cases hk : 1 ≤ r.kind.toNat ∧ r.kind.toNat ≤ 4
  · rcases hkind.mp hk with h | h | h | h
    all_goals
      simp [FormRight, SubRec.formOk, SubRec.isFetch, SubRec.isStore, SubRec.isPoll, SubRec.isBroadcast, h]
      grind
  · have hno := mt hkind.mpr hk
    simp only [not_or] at hno
    simp [FormRight, SubRec.formOk, SubRec.isFetch, SubRec.isStore, SubRec.isPoll, SubRec.isBroadcast]
    grind

theorem decidedBy_iff (r : SubRec) (events : List ReadEvent) (o : Option Status) : DecidedBy r events o ↔ readDecision r events = o := by
  induction events with
  | nil => exact eq_comm
  | cons ev rest ih =>
    cases ev with
    | decided st => exact eq_comm
    | detached a =>
      have hhits : (r.formOk && !r.isBroadcast && r.addr.toNat == a) = true ↔ FormRight r ∧ r.kind ≠ 4 ∧ r.addr.toNat = a := by
        simp [formRight_iff, SubRec.isBroadcast, and_assoc]
      show ((_ → _) ∧ (_ → _)) ↔ (if _ then _ else _) = o
      split
      · next h => exact ⟨fun k => (k.1 (hhits.mp h)).symm, fun k => ⟨fun _ => k.symm, fun hno => absurd (hhits.mp h) hno⟩⟩
      · next h =>
        have hno := mt hhits.mpr h
        exact ⟨fun k => ih.mp (k.2 hno), fun k => ⟨fun hits => absurd hits hno, fun _ => ih.mpr k⟩⟩

/-- The state after a record of ring `ring` is taken into slot `i` of line `l` as slot `y`. -/
def State.withRecord (s : State) (l : LineId) (i : SlotId) (ring : RingId) (x : SubRing) (fence : Bool) (y : Slot) : State :=
  (s.setRing ring (some { x with
    head := (x.head + 1) % 2 ^ x.sizeCode, inFlight := x.inFlight + 1, fenced := x.fenced || fence })).setLine l
      { (s.line l).setSlot i (some y) with read := none, nextAge := (s.line l).nextAge + 1 }

section
variable (s : State) (l : LineId) (i : SlotId) (ring : RingId) (x : SubRing) (fence : Bool) (y : Slot)

theorem State.slot_withRecord : (s.withRecord l i ring x fence y).slot l i = some y := by
  unfold State.slot State.withRecord
  rw [State.line_setLine_same]
  exact Line.slot_setSlot_same _ _ _

theorem State.modSlot_withRecord (g : Slot → Slot) :
    (s.withRecord l i ring x fence y).modSlot l i g = s.withRecord l i ring x fence (g y) := by
  rw [State.modSlot_eq (State.slot_withRecord _ _ _ _ _ _ _), State.putSlot, State.withRecord, State.line_setLine_same, State.setLine_setLine]
  congr 1
  exact congrArg (fun z : Line => { z with read := none, nextAge := (s.line l).nextAge + 1 }) (Line.setSlot_setSlot _ i _ _)

theorem State.enterReady_withRecord : (s.withRecord l i ring x fence y).enterReady l i =
    s.withRecord l i ring x fence (y.enterReady (s.line l).gracefulStop (s.keyed l y.addr)) := by
  have hg : ((s.withRecord l i ring x fence y).line l).gracefulStop = (s.line l).gracefulStop := by
    rw [State.withRecord, State.line_setLine_same]
    rfl
  rw [State.enterReady, State.slot_withRecord]
  dsimp only
  rw [hg, State.modSlot_withRecord]
  rfl

theorem State.fence_withRecord : (s.withRecord l i ring x false y).modRing ring (fun x => { x with fenced := true }) =
    s.withRecord l i ring x true y := by
  have h : ∀ a b : SubRing, vput (vput s.rings ring (some a)) ring (some b) = vput s.rings ring (some b) := fun a b => vput_vput _ _ _ _
  unfold State.modRing
  have hr : (s.withRecord l i ring x false y).ring ring = some { x with
      head := (x.head + 1) % 2 ^ x.sizeCode, inFlight := x.inFlight + 1, fenced := x.fenced || false } := State.ring_setRing_same _ _ _
  rw [hr, State.withRecord, State.withRecord, Bool.or_true]
  show ({ State.setLine _ _ _ with rings := vput (vput s.rings ring _) ring _ } : State) = _
  rw [vput_vput]
  rfl

theorem State.payloadLoaded_withRecord {r : SubRec} (hr : y.sub = r) (bs : List Byte) (hd : y.decided = none) :
    (r.fence = true → (s.withRecord l i ring x fence y).payloadLoaded l i bs = s.withRecord l i ring x fence
      { y with payload := r.params.take r.paramCount.toNat ++ fitBytes r.outLen.toNat bs, state := .waiting })
    ∧ (r.fence = false → (s.withRecord l i ring x fence y).payloadLoaded l i bs = s.withRecord l i ring x fence
      (({ y with payload := r.params.take r.paramCount.toNat ++ fitBytes r.outLen.toNat bs } : Slot).enterReady
        (s.line l).gracefulStop (s.keyed l y.addr))) := by
  subst hr
  rw [State.payloadLoaded, State.slot_withRecord]
  dsimp only
  split
  · next st h => rw [hd] at h; cases h
  · rw [State.modSlot_withRecord, State.modSlot_withRecord, State.enterReady_withRecord]
    exact ⟨fun hf => if_pos hf, fun hf => if_neg (hf.trans_ne Bool.false_ne_true)⟩

/-- Loading an empty payload, a payload in reach and a payload above the top of the address space (R46, R91). -/
theorem State.beginLoading_withRecord {r : SubRec} (hr : y.sub = r) :
    (r.outLen = 0 → (s.withRecord l i ring x fence y).beginLoading l i =
      (s.withRecord l i ring x fence { y with state := .loading }).payloadLoaded l i [])
    ∧ (r.outLen ≠ 0 → r.buf.toNat + r.outLen.toNat ≤ 2 ^ 64 →
      (s.withRecord l i ring x fence y).beginLoading l i = s.withRecord l i ring x fence { y with state := .loading })
    ∧ (r.outLen ≠ 0 → 2 ^ 64 < r.buf.toNat + r.outLen.toNat →
      (s.withRecord l i ring x fence y).beginLoading l i =
        s.withRecord l i ring x fence ({ y with state := .loading, payload := [] }.finishPlain (y.decided.getD .hostReadError))) := by
  subst hr
  have hrange : rangeOk y.sub.buf y.sub.outLen.toNat = true ↔ y.sub.outLen.toNat = 0 ∨ y.sub.buf.toNat + y.sub.outLen.toNat ≤ 2 ^ 64 :=
    decide_eq_true_iff
  have hzero : y.sub.outLen = 0 ↔ y.sub.outLen.toNat = 0 := byte_eq_zero
  rw [State.beginLoading, State.slot_withRecord]
  dsimp only
  rw [State.modSlot_withRecord]
  refine ⟨fun h => if_pos h, fun h hle => (if_neg h).trans (if_pos (hrange.mpr (.inr hle))), fun h hlt => ?_⟩
  have hno : ¬ rangeOk y.sub.buf y.sub.outLen.toNat = true := by
    rw [hrange, ← hzero]
    exact fun e => e.elim h (Nat.not_le.mpr hlt)
  refine (if_neg h).trans ((if_neg hno).trans ?_)
  exact State.modSlot_withRecord _ _ _ _ _ _ _ _

end

/-- The record read takes the record into the lowest FREE slot. -/
theorem State.recordReadEnds_ok {s : State} {l : LineId} {rd : IntakeRead} {bs : List Byte} {x : SubRing} (hw : s.working = true)
    (hr : (s.line l).read = some rd) (hlen : bs.length = 32) (hx : s.ring rd.ring = some x) (hfree : ∃ i, s.slot l i = none) :
    ∃ i, s.slot l i = none
      ∧ (∀ st, s.judgeRecord l (decodeSub bs) rd.events = some st → s.recordReadEnds l (.ok bs) =
        s.withRecord l i rd.ring x false ((newSlot bs rd.ring (s.line l).nextAge).finishPlain st))
      ∧ (s.judgeRecord l (decodeSub bs) rd.events = none → s.recordReadEnds l (.ok bs) =
        (s.withRecord l i rd.ring x false (newSlot bs rd.ring (s.line l).nextAge)).placeRecord l i rd.ring (decodeSub bs)) := by
  cases hi : (s.line l).freeSlot with
  | none =>
    obtain ⟨i, hi'⟩ := hfree
    refine absurd hi' ?_
    have := List.find?_eq_none.mp hi i (List.mem_finRange i)
    show ¬ (s.line l).slot i = none
    simpa using this
  | some i =>
    have hnone : s.slot l i = none := Option.isNone_iff_eq_none.mp (firstFin_eq_some hi).1
    refine ⟨i, hnone, ?_⟩
    have htaken : (s.modRing rd.ring fun x => { x with head := nextIndex (ringSize x.sizeCode) x.head, inFlight := x.inFlight + 1 }).modLine l
        (fun x => { x.setSlot i (some (newSlot bs rd.ring (s.line l).nextAge)) with read := none, nextAge := (s.line l).nextAge + 1 }) =
        s.withRecord l i rd.ring x false (newSlot bs rd.ring (s.line l).nextAge) := by
      unfold State.modRing State.withRecord
      rw [hx, Bool.or_false]
      rfl
    rw [State.recordReadEnds, if_pos hw, hr]
    dsimp only
    rw [hi]
    dsimp only
    rw [fitBytes_of_length hlen, State.takeInto]
    dsimp only
    rw [htaken, show (s.withRecord l i rd.ring x false (newSlot bs rd.ring (s.line l).nextAge)).judgeRecord l (decodeSub bs) rd.events =
      s.judgeRecord l (decodeSub bs) rd.events from rfl]
    refine ⟨fun st h => ?_, fun h => ?_⟩
    · rw [h]
      exact State.modSlot_withRecord _ _ _ _ _ _ _ _
    · rw [h]

theorem State.judgeRecord_eq (s : State) (l : LineId) (r : SubRec) (events : List ReadEvent) :
    (∀ st, readDecision r events = some st → s.judgeRecord l r events = some st)
    ∧ (readDecision r events = none → r.formOk = false → s.judgeRecord l r events = some .badRecord)
    ∧ (readDecision r events = none → r.formOk = true → r.isBroadcast = true → s.judgeRecord l r events = none)
    ∧ (readDecision r events = none → r.formOk = true → r.isBroadcast = false →
        s.judgeRecord l r events = lookupJudgement r.force (s.keyedState l r.addr.toNat)) := by
  unfold State.judgeRecord
  refine ⟨fun st h => by rw [h], fun h hf => ?_, fun h hf hb => ?_, fun h hf hb => ?_⟩
  all_goals simp [h, hf]
  · simp [hb]
  · simp [hb]

theorem recordTaken_withRecord {s : State} {l : LineId} {rd : IntakeRead} {bs : List Byte} {x : SubRing} {i : SlotId} {y : Slot}
    (hx : s.ring rd.ring = some x) (hfree : s.slot l i = none)
    (hy : y.record = bs ∧ y.ring = rd.ring ∧ y.age = (s.line l).nextAge ∧ y.attempts = 0 ∧ y.busy = 0 ∧ y.lastCause = none
      ∧ y.syncAttempt = false ∧ y.lastAttempt = false ∧ y.decided = none ∧ y.response = []) :
    RecordTaken s l rd bs i y (s.withRecord l i rd.ring x y.fenceHeld y) :=
  ⟨hfree, fun x' hx' => by rw [hx] at hx'; cases hx'; rfl, hy⟩

/-- Settles O30. -/
theorem recordReadJudgesTheRecord : Obligations.RecordReadJudgesTheRecord := by
  intro s l bs rd hrd hw hk hlen hring hfree r ends
  obtain ⟨x, hx⟩ := Option.ne_none_iff_exists'.mp hring
  obtain ⟨hdecided, hbad, -, hlookup⟩ := s.judgeRecord_eq l r rd.events
  have hends : ∀ st, s.judgeRecord l r rd.events = some st → ends st := by
    intro st hst
    obtain ⟨i, hi, heff, -⟩ := State.recordReadEnds_ok ((works_iff s).mp hw) hrd hlen hx hfree
    obtain ⟨t, ht, hu⟩ := leads_of_eq (i := .recordRead l (.ok bs)) (s := s) rfl (heff st hst)
    exact ⟨i, (newSlot bs rd.ring (s.line l).nextAge).finishPlain st, _, t, ht, hu, recordTaken_withRecord hx hi ⟨rfl, rfl, rfl, rfl, rfl, rfl, rfl, rfl, rfl, rfl⟩, ⟨rfl, rfl⟩, rfl, rfl⟩
  refine ⟨fun st h => hends st (hdecided st ((decidedBy_iff _ _ _).mp h)),
    fun h hform => hends _ (hbad ((decidedBy_iff _ _ _).mp h) (by simpa [formRight_iff] using hform)), fun h hform hkind => ?_⟩
  have hjudge := hlookup ((decidedBy_iff _ _ _).mp h) ((formRight_iff r).mp hform) (by simpa [SubRec.isBroadcast] using hkind)
  refine ⟨fun hno => hends _ ?_, fun e y hy hl ha => ⟨fun hst => hends _ ?_, fun hst hforce => hends _ ?_⟩⟩
  · rw [hjudge, State.keyedState, State.keyed_eq_none.mpr (State.lookup_eq_none.mpr hno)]
    rfl
  · subst hl
    rw [hjudge, State.keyedState, ← ha, State.keyed_of_station hk hy, Option.map_some, hst]
    rfl
  · subst hl
    rw [hjudge, State.keyedState, ← ha, State.keyed_of_station hk hy, Option.map_some, hst, hforce]
    rfl

/-- Settles O31. -/
theorem recordReadPlacesTheRecord : Obligations.RecordReadPlacesTheRecord := by
  intro s l bs rd hrd hw hk hlen hring hfree r hdec hform hentry params sends
  obtain ⟨x, hx⟩ := Option.ne_none_iff_exists'.mp hring
  obtain ⟨-, -, hbroadcast, hlookup⟩ := s.judgeRecord_eq l r rd.events
  have hdec := (decidedBy_iff _ _ _).mp hdec
  have hok := (formRight_iff r).mp hform
  have hjudge : s.judgeRecord l r rd.events = none := by
    rcases hentry with h4 | ⟨e, y, hy, rfl, ha, hst, hforce⟩
    · exact hbroadcast hdec hok (by simp [SubRec.isBroadcast, h4])
    · cases hb : r.isBroadcast with
      | true => exact hbroadcast hdec hok hb
      | false =>
        rw [hlookup hdec hok hb, State.keyedState, ← ha, State.keyed_of_station hk hy, Option.map_some]
        cases hs : y.state with
        | detaching => exact absurd hs hst
        | offline => rw [hforce hs]; rfl
        | _ => rfl
  obtain ⟨i, hi, -, heff⟩ := State.recordReadEnds_ok ((works_iff s).mp hw) hrd hlen hx hfree
  replace heff := heff hjudge
  have hsends : (r.isStore || r.isBroadcast) = true ↔ sends := by simp [SubRec.isStore, SubRec.isBroadcast, sends]
  generalize hnew : newSlot bs rd.ring (s.line l).nextAge = y0 at heff
  have hfence : ((if r.fence then
      ((s.withRecord l i rd.ring x false y0).modRing rd.ring fun x => { x with fenced := true }).modSlot l i fun y => { y with fenceHeld := true }
      else s.withRecord l i rd.ring x false y0) : State) = s.withRecord l i rd.ring x r.fence { y0 with fenceHeld := r.fence } := by
    cases hf : r.fence with
    | true => exact (if_pos rfl).trans (by rw [State.fence_withRecord, State.modSlot_withRecord])
    | false => subst hnew; rfl
  have hplace : (s.withRecord l i rd.ring x false y0).placeRecord l i rd.ring r =
      if r.isStore || r.isBroadcast then (s.withRecord l i rd.ring x r.fence { y0 with fenceHeld := r.fence }).beginLoading l i
      else if r.fence then s.withRecord l i rd.ring x r.fence { y0 with fenceHeld := r.fence, state := .waiting }
      else s.withRecord l i rd.ring x r.fence
        (({ y0 with fenceHeld := r.fence } : Slot).enterReady (s.line l).gracefulStop (s.keyed l y0.addr)) := by
    rw [State.placeRecord, hfence, State.modSlot_withRecord, State.enterReady_withRecord]
    rfl
  rw [hplace] at heff
  have hkept : y0.sub = r ∧ y0.record = bs ∧ y0.ring = rd.ring ∧ y0.age = (s.line l).nextAge ∧ y0.attempts = 0 ∧ y0.busy = 0
      ∧ y0.lastCause = none ∧ y0.syncAttempt = false ∧ y0.lastAttempt = false ∧ y0.decided = none ∧ y0.response = [] := by
    rw [← hnew]
    exact ⟨rfl, rfl, rfl, rfl, rfl, rfl, rfl, rfl, rfl, rfl, rfl⟩
  have hpayload : y0.payload = [] := by rw [← hnew]; rfl
  have hout : y0.outcome = none := by rw [← hnew]; rfl
  obtain ⟨hsub, hrecord, hring', hage, hattempts, hbusy, hcause, hsync, hlast, hdecided, hresponse⟩ := hkept
  have hends : ∀ y : Slot, y = { y0 with fenceHeld := r.fence, state := y.state, outcome := y.outcome, payload := y.payload } →
      s.recordReadEnds l (.ok bs) = s.withRecord l i rd.ring x r.fence y →
      ∃ t, exec (.recordRead l (.ok bs)) s = .next t ∧ AfterUnits (s.withRecord l i rd.ring x y.fenceHeld y) t
        ∧ RecordTaken s l rd bs i y (s.withRecord l i rd.ring x y.fenceHeld y) ∧ y.fenceHeld = r.fence := by
    intro y hy he
    have hheld : y.fenceHeld = r.fence := by rw [hy]
    obtain ⟨t, ht, hu⟩ := leads_of_eq (i := .recordRead l (.ok bs)) (s := s) rfl he
    rw [← hheld] at hu
    refine ⟨t, ht, hu, recordTaken_withRecord hx hi ?_, hheld⟩
    rw [hy]
    exact ⟨hrecord, hring', hage, hattempts, hbusy, hcause, hsync, hlast, hdecided, hresponse⟩
  have hready : ∀ y : Slot, y.outcome = none → y.record = y0.record →
      EnteredReady s l (y.enterReady (s.line l).gracefulStop (s.keyed l y0.addr)) := fun y ho hr => by
    have ha : y0.addr = y.addr := by unfold Slot.addr Slot.sub; rw [hr]
    rw [ha]
    exact enteredReady_enterReady s l ho
  have hentered : ∀ y : Slot, ∀ g st, (y.enterReady g st).payload = y.payload := fun y g st => by rw [Slot.enterReady_eq]
  obtain ⟨hempty, hloads, habove⟩ := State.beginLoading_withRecord s l i rd.ring x r.fence { y0 with fenceHeld := r.fence } hsub
  by_cases hs : sends
  · replace heff := heff.trans (if_pos (hsends.mpr hs))
    by_cases hz : r.outLen = 0
    · obtain ⟨hwait, hgo⟩ := State.payloadLoaded_withRecord s l i rd.ring x r.fence
        { y0 with fenceHeld := r.fence, state := .loading } hsub [] hdecided
      have hparams : r.params.take r.paramCount.toNat ++ fitBytes r.outLen.toNat [] = params := by
        rw [hz]
        exact List.append_nil _
      rw [hparams] at hwait hgo
      cases hf : r.fence with
      | true =>
        obtain ⟨t, ht, hu, htaken, hheld⟩ := hends _ (by rfl) (heff.trans ((hempty hz).trans (hwait hf)))
        exact ⟨i, _, _, t, ht, hu, htaken, hheld.trans hf, fun _ h => absurd hz h, fun _ _ h => absurd hz h,
          fun _ => ⟨(if_pos hs).symm, fun _ => ⟨rfl, hout⟩, nofun⟩⟩
      | false =>
        obtain ⟨t, ht, hu, htaken, hheld⟩ := hends _ (by rw [Slot.enterReady_eq]) (heff.trans ((hempty hz).trans (hgo hf)))
        exact ⟨i, _, _, t, ht, hu, htaken, hheld.trans hf, fun _ h => absurd hz h, fun _ _ h => absurd hz h,
          fun _ => ⟨(hentered _ _ _).trans (if_pos hs).symm, nofun, fun _ => hready _ hout rfl⟩⟩
    · by_cases hle : r.buf.toNat + r.outLen.toNat ≤ 2 ^ 64
      · obtain ⟨t, ht, hu, htaken, hheld⟩ := hends _ (by rfl) (heff.trans (hloads hz hle))
        exact ⟨i, _, _, t, ht, hu, htaken, hheld, fun _ _ _ => ⟨rfl, hout, hpayload⟩, fun _ h => absurd hle (Nat.not_le.mpr h),
          fun h => absurd h (not_or.mpr ⟨not_not.mpr hs, hz⟩)⟩
      · obtain ⟨t, ht, hu, htaken, hheld⟩ := hends _ (by rfl) (heff.trans (habove hz (Nat.not_le.mp hle)))
        refine ⟨i, _, _, t, ht, hu, htaken, hheld, fun _ _ h => absurd h hle, fun _ _ _ => ⟨⟨rfl, ?_⟩, rfl⟩,
          fun h => absurd h (not_or.mpr ⟨not_not.mpr hs, hz⟩)⟩
        show some (SlotOutcome.mk (y0.decided.getD _) _ _ _) = _
        rw [hdecided]
        rfl
  · replace heff := heff.trans (if_neg (mt hsends.mp hs))
    cases hf : r.fence with
    | true =>
      obtain ⟨t, ht, hu, htaken, hheld⟩ := hends _ (by rfl) (heff.trans (if_pos hf))
      exact ⟨i, _, _, t, ht, hu, htaken, hheld.trans hf, fun h => absurd h hs, fun h => absurd h hs,
        fun _ => ⟨hpayload.trans (if_neg hs).symm, fun _ => ⟨rfl, hout⟩, nofun⟩⟩
    | false =>
      obtain ⟨t, ht, hu, htaken, hheld⟩ := hends _ (by rw [Slot.enterReady_eq]) (heff.trans (if_neg (hf.trans_ne Bool.false_ne_true)))
      exact ⟨i, _, _, t, ht, hu, htaken, hheld.trans hf, fun h => absurd h hs, fun h => absurd h hs,
        fun _ => ⟨(hentered _ _ _).trans (hpayload.trans (if_neg hs).symm), nofun, fun _ => hready _ hout rfl⟩⟩
/-! ## Payload reads and data writes (R46, R59, R91, R96 to R98) -/

theorem State.slotIs_iff {s : State} {l : LineId} {i : SlotId} {x : Slot} {st : SlotState} (hx : s.slot l i = some x) :
    s.slotIs l i st = true ↔ s.working = true ∧ x.state = st := by
  simp [State.slotIs, hx]

/-- Settles O32. -/
theorem payloadReadMovesTheSlotOn : Obligations.PayloadReadMovesTheSlotOn := by
  intro s l i x hx hw hst hout r ends
  have his : s.slotIs l i .loading = true := (State.slotIs_iff hx).mpr ⟨(works_iff s).mp hw, hst⟩
  have hends : ∀ b y, s.payloadReadEnds l i b = s.putSlot l i (some y) → ends b y := fun b y h => leads_of_eq rfl h
  have hok : ∀ bs, s.payloadReadEnds l i (.ok bs) = s.payloadLoaded l i bs := fun bs => if_pos his
  have herror : s.payloadReadEnds l i .error = s.payloadFailed l i := if_pos his
  refine ⟨fun st hd bs => ⟨x.finishPlain st, hends _ _ ((hok bs).trans ?_), ⟨rfl, rfl⟩, rfl⟩,
    ⟨_, hends _ _ (herror.trans (State.modSlot_eq hx _)), ⟨rfl, rfl⟩, rfl⟩, fun hd bs hlen => ?_⟩
  · rw [State.payloadLoaded, Option.mem_def.mp hx]
    dsimp only
    rw [Option.mem_def.mp hd]
    exact State.modSlot_eq hx _
  · have hload : s.payloadLoaded l i bs =
        if r.fence then s.putSlot l i (some { x with payload := r.params.take r.paramCount.toNat ++ bs, state := .waiting })
        else s.putSlot l i (some (({ x with payload := r.params.take r.paramCount.toNat ++ bs } : Slot).enterReady
          (s.line l).gracefulStop (s.keyed l x.addr))) := by
      rw [State.payloadLoaded, Option.mem_def.mp hx]
      dsimp only
      split
      · next st h => rw [hd] at h; cases h
      · rw [fitBytes_of_length hlen, State.modSlot_eq hx, State.modSlot_putSlot, State.enterReady_putSlot]
        rfl
    cases hf : r.fence with
    | true => exact ⟨_, hends _ _ ((hok bs).trans (hload.trans (if_pos hf))), rfl, fun _ => ⟨rfl, hout⟩, nofun⟩
    | false =>
      refine ⟨_, hends _ _ ((hok bs).trans (hload.trans (if_neg (hf.trans_ne Bool.false_ne_true)))), ?_, nofun, fun _ => ?_⟩
      · rw [Slot.enterReady_eq]
      · exact enteredReady_enterReady s l (x := { x with payload := r.params.take r.paramCount.toNat ++ bs }) hout

/-- Settles O33. -/
theorem dataWriteEndsTheStore : Obligations.DataWriteEndsTheStore := by
  intro s l i x hx hw hst len n a ends detail
  have his : s.slotIs l i .storing = true := (State.slotIs_iff hx).mpr ⟨(works_iff s).mp hw, hst⟩
  have heff : ∀ w, s.dataWriteEnds l i w = match w with
      | .ok => (s.hostWrite a (x.response.take n)).modSlot l i Slot.stored
      | .error landed => (s.hostWriteMasked a (x.response.take n) landed).modSlot l i Slot.storeFailed := fun w => by
    rw [State.dataWriteEnds, if_pos his, Option.mem_def.mp hx]
    rfl
  refine ⟨⟨_, written_memWrite _ _ _, ?_⟩, fun landed => ⟨_, partlyWritten_memWriteMasked _ _ _ landed, ?_⟩⟩
  · exact leads_of_eq rfl ((heff _).trans (State.modSlot_eq (s := s.hostWrite a (x.response.take n)) hx _))
  · exact leads_of_eq rfl ((heff _).trans (State.modSlot_eq (s := s.hostWriteMasked a (x.response.take n) landed) hx _))

/-! ## Deliveries (R114, R115) -/

theorem State.deliveryDecided_eq {s : State} {l : LineId} {r : CRingId} (hr : (s.line l).scanner.reservation = some r) (d : Delivery)
    (st : Status) : s.deliveryDecided l d st = (s.setLine l { s.line l with scanner := { (s.line l).scanner with
      delivery := some { d with status := some st, state := (s.keyed l d.addr).map (·.state) } } }).modCRing r
        fun c => { c with waiting := c.waiting ++ [.scanner l] } := by
  have hkept : ((s.modLine l fun x => { x with scanner := { x.scanner with
      delivery := some { d with status := some st, state := s.keyedState l d.addr } } }).line l).scanner.reservation = some r := by
    rw [State.line_modLine_same]
    exact hr
  rw [State.deliveryDecided]
  dsimp only
  rw [hkept]
  rfl

/-- Settles O34. -/
theorem deliveryReadsItsBufferAndWritesIt : Obligations.DeliveryReadsItsBufferAndWritesIt := by
  intro s l d hd r hr hw hst put decided
  have hdel : s.deliveryOf l = some d := by
    rw [State.deliveryOf, if_pos (by simp [(works_iff s).mp hw, hst])]
    exact hd
  refine ⟨fun hb bs hlen => ?_, fun b hb hs => ⟨?_, fun landed => ?_⟩⟩
  · have heff : s.poolReadEnds l (.ok bs) = s.deliveryAddressed l d (addrAt bs 0) := by
      rw [State.poolReadEnds, hdel]
      dsimp only
      rw [hb]
    by_cases hlt : (addrAt bs 0).toNat < 2 ^ 56
    · obtain ⟨t, ht, hu⟩ := leads_of_eq (i := .poolEntryRead l (.ok bs)) (s := s) rfl (heff.trans (if_neg (Nat.not_le.mpr hlt)))
      exact ⟨t, ht, (if_pos hlt).mpr hu⟩
    · obtain ⟨t, ht, hu⟩ := leads_of_eq (i := .poolEntryRead l (.ok bs)) (s := s) rfl
        (heff.trans ((if_pos (Nat.not_lt.mp hlt)).trans (State.deliveryDecided_eq hr _ _)))
      exact ⟨t, ht, (if_neg hlt).mpr hu⟩
  · have heff : s.scanWriteEnds l .ok = (s.hostWrite b.toNat d.payload).deliveryDecided l d .ok := by
      rw [State.scanWriteEnds, hdel]
      dsimp only
      rw [Option.mem_def.mp hb, hs]
    obtain ⟨t, ht, hu⟩ := leads_of_eq (i := .scanDataWrite l .ok) (s := s) rfl
      (heff.trans (State.deliveryDecided_eq (s := s.hostWrite b.toNat d.payload) hr d .ok))
    refine ⟨_, t, ht, written_memWrite _ _ _, ?_⟩
    have hbuf : d.buffer = some b := hb
    cases d
    cases hbuf
    exact hu
  · have heff : s.scanWriteEnds l (.error landed) =
        (s.hostWriteMasked b.toNat d.payload landed).deliveryDecided l d .hostWriteError := by
      rw [State.scanWriteEnds, hdel]
      dsimp only
      rw [Option.mem_def.mp hb, hs]
    obtain ⟨t, ht, hu⟩ := leads_of_eq (i := .scanDataWrite l (.error landed)) (s := s) rfl
      (heff.trans (State.deliveryDecided_eq (s := s.hostWriteMasked b.toNat d.payload landed) hr d .hostWriteError))
    refine ⟨_, t, ht, partlyWritten_memWriteMasked _ _ _ landed, ?_⟩
    have hbuf : d.buffer = some b := hb
    cases d
    cases hbuf
    exact hu

/-! ## Completion writes (R60, R138, R144) -/

/-- What the coalescing steps make of the state: the cause of the ring, and its context (R144). -/
theorem State.coalesce_eq {s : State} {r : CRingId} {c : CRing} (hc : s.cring r = some c) (urgent : Bool) :
    (urgent = true ∨ c.threshold ≤ min 255 (c.unsignalled + 1) → s.coalesce r urgent =
      { s.setCRing r (some { c with unsignalled := 0, timer := none }) with intcause := s.intcause ||| BitVec.twoPow 6 r.val })
    ∧ (¬ (urgent = true ∨ c.threshold ≤ min 255 (c.unsignalled + 1)) → s.coalesce r urgent =
      s.setCRing r (some { c with
        unsignalled := min 255 (c.unsignalled + 1), timer := if c.timer = none ∧ c.time ≠ 0 then some s.nowUs else c.timer })) := by
  have hcount : s.modCRing r (fun c => { c with unsignalled := satSucc 255 c.unsignalled }) =
      s.setCRing r (some { c with unsignalled := min 255 (c.unsignalled + 1) }) := by
    rw [State.modCRing, hc, ← satSucc_eq]
    rfl
  have hsignal : (s.setCRing r (some { c with unsignalled := min 255 (c.unsignalled + 1) })).signalRing r =
      { s.setCRing r (some { c with unsignalled := 0, timer := none }) with intcause := s.intcause ||| BitVec.twoPow 6 r.val } :=
    State.setCRing_modCRing (s.setCause r.val) r { c with unsignalled := min 255 (c.unsignalled + 1) }
      fun c => { c with unsignalled := 0, timer := none }
  rw [State.coalesce, hcount]
  dsimp only
  rw [State.cring_setCRing_same]
  dsimp only
  rw [hsignal]
  refine ⟨fun h => ?_, fun h => ?_⟩
  · split
    · rfl
    · next hu => exact if_pos (h.resolve_left hu)
  · rw [not_or] at h
    rw [if_neg h.1, if_neg h.2]
    split
    · rw [setCRing_setCRing]
      rfl
    · rfl

theorem CompRecord.urgent_iff (r : CompRecord) : r.urgent = true ↔ match r.kind with
    | .txn => r.status ≠ .ok
    | .admin => r.status ≠ .ok
    | .scanData => r.status = .hostWriteError
    | .stationNotice => True
    | .lineNotice => True := by
  unfold CompRecord.urgent
  cases r.kind <;> simp

/-- Settles O35. -/
theorem completionWriteEndsInOneStep : Obligations.CompletionWriteEndsInOneStep := by
  intro s r c hc w hwr hw size tail n urgent signal
  have heff : s.completionEnds r .ok = ((((s.hostWrite (c.base.toNat + 16 * w.place) w.bytes).setCRing r (some c.writeEnded)).coalesce r
      w.record.urgent).tellWriter w.writer) := by
    rw [State.completionEnds, if_pos ((works_iff s).mp hw), Option.mem_def.mp hc]
    dsimp only
    rw [Option.mem_def.mp hwr]
  have hurgent : w.record.urgent = true ↔ urgent := w.record.urgent_iff
  obtain ⟨d, ic, hstate, hd, hcause, hno, hsig, hnosig⟩ : ∃ d ic,
      ((s.hostWrite (c.base.toNat + 16 * w.place) w.bytes).setCRing r (some c.writeEnded)).coalesce r w.record.urgent =
        { s.setCRing r (some d) with hostMem := memWrite s.hostMem (c.base.toNat + 16 * w.place) w.bytes, intcause := ic }
      ∧ d = { c with
          tail := tail, pass := if tail = 0 then !c.pass else c.pass, written := c.written + 1,
          reserved := c.reserved - 1, write := none, unsignalled := d.unsignalled, timer := d.timer }
      ∧ (signal → ic = s.intcause ||| BitVec.twoPow 6 r.val) ∧ (¬ signal → ic = s.intcause)
      ∧ (signal → d.unsignalled = 0 ∧ d.timer = none)
      ∧ (¬ signal → d.unsignalled = n ∧ d.timer = if c.timer = none ∧ c.time ≠ 0 then some s.nowUs else c.timer) := by
    obtain ⟨hyes, hno⟩ := State.coalesce_eq (State.cring_setCRing_same (s.hostWrite (c.base.toNat + 16 * w.place) w.bytes) r
      (some c.writeEnded)) w.record.urgent
    rw [hurgent] at hyes hno
    by_cases hs : signal
    · refine ⟨{ c.writeEnded with unsignalled := 0, timer := none }, _, (hyes hs).trans ?_, rfl, fun _ => rfl, fun h => absurd hs h,
        fun _ => ⟨rfl, rfl⟩, fun h => absurd hs h⟩
      rw [setCRing_setCRing]
      rfl
    · refine ⟨{ c.writeEnded with unsignalled := n, timer := if c.timer = none ∧ c.time ≠ 0 then some s.nowUs else c.timer }, _,
        (hno hs).trans ?_, rfl, fun h => absurd h hs, fun _ => rfl, fun h => absurd h hs, fun _ => ⟨rfl, rfl⟩⟩
      rw [setCRing_setCRing]
      rfl
  rw [hstate] at heff
  obtain ⟨t, ht, hu⟩ := leads_of_eq (i := .completionWrite r .ok) (s := s) rfl heff
  have hwritten := written_memWrite s.hostMem (c.base.toNat + 16 * w.place) w.bytes
  generalize hU : ({ s.setCRing r (some d) with hostMem := memWrite s.hostMem (c.base.toNat + 16 * w.place) w.bytes, intcause := ic } :
    State) = U at hu
  refine ⟨_, t, ht, hu, ?_⟩
  cases hwriter : w.writer with
  | slot l i =>
    cases hx : s.slot l i with
    | none =>
      have htell : U.tellWriter (.slot l i) = U.modLine l fun y => { y.setSlot i none with txnWriter := none } := by
        show U.slotWritten l i = _
        rw [State.slotWritten, show U.slot l i = none by rw [← hU]; exact hx]
      rw [htell]
      subst hU
      exact ⟨hwritten, hcause, hno, ⟨d, rfl, hd, hsig, hnosig⟩, rfl, rfl, fun _ => rfl, fun y hy => nomatch (hx.symm.trans hy : none = some y)⟩
    | some x =>
      have htell : U.tellWriter (.slot l i) = (U.modRing x.ring fun q =>
          { q with inFlight := q.inFlight - 1, fenced := q.fenced && !x.fenceHeld }).modLine l
            fun y => { y.setSlot i none with txnWriter := none } := by
        show U.slotWritten l i = _
        rw [State.slotWritten, show U.slot l i = some x by rw [← hU]; exact hx]
      rw [htell]
      subst hU
      refine ⟨hwritten, hcause, hno, ⟨d, rfl, hd, hsig, hnosig⟩, rfl, rfl, fun h => (nomatch (hx.symm.trans h : some x = none)),
        fun y hy => ?_⟩
      obtain rfl : x = y := Option.some.inj (hx.symm.trans hy)
      rfl
  | admin => subst hU; exact ⟨hwritten, hcause, hno, ⟨d, rfl, hd, hsig, hnosig⟩, rfl⟩
  | scanner l => subst hU; exact ⟨hwritten, hcause, hno, ⟨d, rfl, hd, hsig, hnosig⟩, rfl⟩
  | notice l => subst hU; exact ⟨hwritten, hcause, hno, ⟨d, rfl, hd, hsig, hnosig⟩, rfl⟩

end Sys2Proof.Machine

/-! # What the units take next (chapters 3, 6 and 9)

The order of the rings and of the slots, the Arbiter's candidate, and what each act of the units is. -/

namespace Sys2Proof.Machine

open Sys2Proof.Claims

/-! ## The first and the least of a list -/

theorem find?_first {α : Type} {R : α → α → Prop} {p : α → Bool} {xs : List α} (hxs : xs.Pairwise R) {a : α} (h : xs.find? p = some a) :
    ∀ b ∈ xs, p b = true → a = b ∨ R a b := by
  obtain ⟨-, before, after, rfl, hbefore⟩ := List.find?_eq_some_iff_append.mp h
  intro b hb hp
  obtain ⟨-, hafter, -⟩ := List.pairwise_append.mp hxs
  rcases List.mem_append.mp hb with e | e
  · exact absurd hp (by simpa using hbefore b e)
  · exact (List.mem_cons.mp e).imp Eq.symm ((List.pairwise_cons.mp hafter).1 b)

theorem findSome?_first {α β : Type} {R : α → α → Prop} {f : α → Option β} {xs : List α} (hxs : xs.Pairwise R) {v : β}
    (h : xs.findSome? f = some v) : ∃ a ∈ xs, f a = some v ∧ ∀ b ∈ xs, f b ≠ none → a = b ∨ R a b := by
  obtain ⟨before, a, after, rfl, ha, hbefore⟩ := List.findSome?_eq_some_iff.mp h
  refine ⟨a, by simp, ha, fun b hb hp => ?_⟩
  obtain ⟨-, hafter, -⟩ := List.pairwise_append.mp hxs
  rcases List.mem_append.mp hb with e | e
  · exact absurd (hbefore b e) hp
  · exact (List.mem_cons.mp e).imp Eq.symm ((List.pairwise_cons.mp hafter).1 b)

/-- A fold that keeps the entry of the smaller key ends at an entry of the least key, and at none only where there is none. -/
theorem foldl_least {ι κ : Type} [LinearOrder κ] {key : ι → κ} {valid : ι → Prop} {op : Option ι → ι → Option ι}
    (hnone : ∀ i, valid i → op none i = some i)
    (hsome : ∀ b i, valid b → valid i → op (some b) i = if key i < key b then some i else some b) :
    ∀ (is : List ι) (b : Option ι), (∀ i ∈ is, valid i) → (∀ i ∈ b, valid i) →
      (is.foldl op b = none → is = []) ∧ ∀ i, is.foldl op b = some i →
        (b = some i ∨ i ∈ is) ∧ (∀ j ∈ b, key i ≤ key j) ∧ ∀ j ∈ is, key i ≤ key j := by
  intro is
  induction is with
  | nil => exact fun b _ _ => ⟨fun _ => rfl, fun i h => ⟨.inl h, fun j hj => by simp_all, by simp⟩⟩
  | cons j is ih =>
    intro b his hb
    have hj := his j (by simp)
    obtain ⟨c, hc, hcb, hcj, hfrom⟩ : ∃ c, op b j = some c ∧ (∀ k ∈ b, key c ≤ key k) ∧ key c ≤ key j ∧ (b = some c ∨ c = j) := by
      cases b with
      | none => exact ⟨j, hnone j hj, by simp, le_rfl, .inr rfl⟩
      | some b =>
        rw [hsome b j (hb b rfl) hj]
        split
        · next h => exact ⟨j, rfl, fun k hk => Option.some.inj hk ▸ h.le, le_rfl, .inr rfl⟩
        · next h => exact ⟨b, rfl, fun k hk => Option.some.inj hk ▸ le_rfl, not_lt.mp h, .inl rfl⟩
    have hvalid : ∀ i ∈ some c, valid i := by
      intro i hi
      obtain rfl := Option.some.inj hi
      exact hfrom.elim (hb c) (fun e => e ▸ hj)
    obtain ⟨hempty, hleast⟩ := ih (some c) (fun i hi => his i (by simp [hi])) hvalid
    rw [List.foldl_cons, hc]
    refine ⟨fun h => ?_, fun i hi => ?_⟩
    · obtain rfl := hempty h
      simp at h
    · obtain ⟨hmem, hbest, hrest⟩ := hleast i hi
      have hic : key i ≤ key c := hbest c rfl
      refine ⟨?_, fun k hk => hic.trans (hcb k hk), fun k hk => ?_⟩
      · rcases hmem with e | e
        · obtain rfl : c = i := by simpa using e
          exact hfrom.imp id fun e => by simp [e]
        · exact .inr (by simp [e])
      · rcases List.mem_cons.mp hk with rfl | e
        · exact hic.trans hcj
        · exact hrest k e

/-! ## The rings in turn (R41, R51) -/

theorem roundRobin_pairwise : ∀ last : Option RingId, (roundRobin last).Pairwise fun a b => rankAfter last a < rankAfter last b := by
  decide

theorem mem_roundRobin : ∀ (last : Option RingId) (r : RingId), r ∈ roundRobin last ↔ 1 ≤ r.val := by decide

theorem rankAfter_le_of_first {last : Option RingId} {a b : RingId} (h : a = b ∨ rankAfter last a < rankAfter last b) :
    rankAfter last a ≤ rankAfter last b := h.elim (fun e => e ▸ le_rfl) le_of_lt

/-! ## The oldest slot (R48, R60) -/

/-- The age of the slot at place `i`, by which slots are ordered. -/
def Line.ageAt (x : Line) (i : SlotId) : Nat := ((x.slot i).map (·.age)).getD 0

theorem Line.ageAt_of_slot {x : Line} {i : SlotId} {y : Slot} (h : x.slot i = some y) : x.ageAt i = y.age := by simp [Line.ageAt, h]

/-- Among places that hold slots the oldest is one of least age, and there is one unless there is no place. -/
theorem Line.oldest_least {x : Line} {is : List SlotId} (his : ∀ i ∈ is, ∃ y, x.slot i = some y) :
    (x.oldest is = none → is = []) ∧ ∀ i, x.oldest is = some i → i ∈ is ∧ ∀ j ∈ is, x.ageAt i ≤ x.ageAt j := by
  have h := foldl_least (key := x.ageAt) (valid := fun i => ∃ y, x.slot i = some y) (op := x.olderSlot)
    (fun i ⟨y, hy⟩ => by simp [Line.olderSlot, hy])
    (fun b i ⟨z, hz⟩ ⟨y, hy⟩ => by simp [Line.olderSlot, hy, hz, Line.ageAt]) is none his (by simp)
  exact ⟨h.1, fun i hi => by simpa using h.2 i hi⟩

theorem Line.behindOlder_eq_false {x : Line} {y : Slot} :
    x.behindOlder y = false ↔ ∀ j, ∀ z ∈ x.slot j, z.ring = y.ring → z.addr = y.addr → y.age ≤ z.age := by
  rw [Line.behindOlder, List.any_eq_false]
  refine ⟨fun h j z hz hr ha => ?_, fun h j _ => ?_⟩
  · have := h j (List.mem_finRange j)
    rw [Line.olderOfPair, Option.mem_def.mp hz] at this
    simpa [hr, ha] using this
  · rw [Line.olderOfPair]
    split
    · next z hz => simpa using h j z hz
    · simp

theorem State.addrBlocked_eq_false {s : State} {l : LineId} {a : Nat} :
    s.addrBlocked l a = false ↔ ∀ st ∈ s.keyed l a, st.holdUntil = none ∧ st.redelivery = false := by
  unfold State.addrBlocked
  split
  · next st hk => simp [hk, Station.blocked]
  · next hk => simp [hk]

theorem grantable_iff {s : State} {l : LineId} {i : SlotId} {x : Slot} :
    Grantable s l i x ↔ s.slot l i = some x ∧ s.grantEligible l i = true := by
  unfold Grantable State.grantEligible
  refine and_congr_right fun hx => ?_
  rw [hx]
  simp only [Bool.and_eq_true, Bool.not_eq_true', beq_iff_eq, Line.behindOlder_eq_false, State.addrBlocked_eq_false, and_assoc]
  rfl

theorem State.grantEligibleOf_iff {s : State} {l : LineId} {r : RingId} {i : SlotId} :
    s.grantEligibleOf l r i = true ↔ ∃ x, Grantable s l i x ∧ x.ring = r := by
  unfold State.grantEligibleOf
  split
  · next x hx => simp [grantable_iff, hx]
  · next hx => simp [grantable_iff, hx]

/-! ## The station due first (R107, R110) -/

theorem due_iff {s : State} {l : LineId} {e : EntryId} {x : Station} :
    Due s l e x ↔ s.station e = some x ∧ s.candidateAt l e = true := by
  unfold Due State.candidateAt
  refine and_congr_right fun hx => ?_
  rw [hx]
  have hconfig : (match s.configOf x with | some c => c.noticeRing.isSome | none => false) = true
      ↔ ∃ c ∈ (s.line x.line).config, c.noticeRing ≠ none := by
    unfold State.configOf
    cases (s.line x.line).config <;> simp [Option.isSome_iff_ne_none]
  have hexchange : (s.line x.line).exchangesWith x.addr = false
      ↔ ∀ i, ∀ y ∈ s.slot x.line i, y.addr = x.addr → y.state ≠ .active ∧ y.state ≠ .storing := by
    rw [Line.exchangesWith, List.any_eq_false]
    refine ⟨fun h i y hy ha => ?_, fun h i _ => ?_⟩
    · have := h i (List.mem_finRange i)
      rw [show (s.line x.line).slot i = some y from hy] at this
      simpa [ha] using this
    · split
      · next y hy => simpa using h i y hy
      · simp
  have hpool : (!x.redelivery || s.poolHolds) = true ↔ (x.redelivery = true → ∃ p ∈ s.pool, p.head ≠ p.tail) := by
    unfold State.poolHolds
    cases s.pool <;> cases x.redelivery <;> simp
  constructor
  · rintro ⟨rfl, hd, hm, hc, hn, hh, he, hp⟩
    simp only [State.isCandidate, Station.scanMember, Bool.and_eq_true, Bool.not_eq_true', hexchange, hpool]
    simp only [bne_iff_ne, Bool.or_eq_true, beq_iff_eq, decide_eq_true_eq, Option.isNone_iff_eq_none, or_assoc]
    exact ⟨trivial, ⟨⟨⟨⟨⟨hd, hm⟩, hconfig.mpr hc⟩, hn⟩, hh⟩, he⟩, hp⟩
  · intro h
    simp only [State.isCandidate, Station.scanMember, Bool.and_eq_true, Bool.not_eq_true', hexchange, hpool] at h
    simp only [bne_iff_ne, Bool.or_eq_true, beq_iff_eq, decide_eq_true_eq, Option.isNone_iff_eq_none, or_assoc] at h
    obtain ⟨rfl, ⟨⟨⟨⟨⟨hd, hm⟩, hc⟩, hn⟩, hh⟩, he⟩, hp⟩ := h
    exact ⟨rfl, hd, hm, hconfig.mp hc, hn, hh, he, hp⟩

theorem State.candidateAt_iff {s : State} {l : LineId} {e : EntryId} : s.candidateAt l e = true ↔ ∃ x, Due s l e x := by
  simp only [due_iff]
  refine ⟨fun h => ?_, fun ⟨x, _, h⟩ => h⟩
  cases hx : s.station e with
  | none => simp [State.candidateAt, hx] at h
  | some x => exact ⟨x, rfl, h⟩

theorem State.hasCandidate_iff {s : State} {l : LineId} : s.hasCandidate l = true ↔ ∃ e x, Due s l e x := by
  simp [State.hasCandidate, State.candidateAt_iff]

theorem State.hasCandidate_eq_false {s : State} {l : LineId} : s.hasCandidate l = false ↔ ∀ e x, ¬ Due s l e x := by
  rw [← Bool.not_eq_true, State.hasCandidate_iff]
  simp only [not_exists]

/-- The key by which the Scanner orders stations: the next due time, then the address. -/
def State.dueKey (s : State) (e : EntryId) : Nat ×ₗ Nat :=
  match s.station e with
  | some x => toLex (x.nextDue, x.addr)
  | none => toLex (0, 0)

theorem State.dueKey_of_station {s : State} {e : EntryId} {x : Station} (h : s.station e = some x) :
    s.dueKey e = toLex (x.nextDue, x.addr) := by simp [State.dueKey, h]

/-- The Scanner's choice is a station due of least key, and there is one wherever a station is due. -/
theorem State.scanChoice_least {s : State} {l : LineId} :
    (s.scanChoice l = none → ∀ e x, ¬ Due s l e x)
    ∧ ∀ e, s.scanChoice l = some e → ∃ x, Due s l e x
      ∧ ∀ f y, Due s l f y → x.nextDue < y.nextDue ∨ (x.nextDue = y.nextDue ∧ x.addr ≤ y.addr) := by
  have h := foldl_least (key := s.dueKey) (valid := fun e => ∃ x, s.station e = some x) (op := s.betterCandidate)
    (fun e _ => rfl)
    (fun b e ⟨y, hy⟩ ⟨x, hx⟩ => by
      simp only [State.betterCandidate, hx, hy, State.dueKey_of_station hx, State.dueKey_of_station hy, Prod.Lex.toLex_lt_toLex])
    (allFin (s.candidateAt l)) none
    (fun e he => (State.candidateAt_iff.mp (mem_allFin.mp he)).imp fun x hx => (due_iff.mp hx).1) (by simp)
  refine ⟨fun hn e x hd => ?_, fun e he => ?_⟩
  · have := h.1 hn
    exact absurd (this ▸ mem_allFin.mpr (State.candidateAt_iff.mpr ⟨x, hd⟩)) (by simp)
  · obtain ⟨hmem, -, hleast⟩ := h.2 e he
    obtain ⟨x, hx⟩ := State.candidateAt_iff.mp (mem_allFin.mp (hmem.resolve_left (by simp)))
    refine ⟨x, hx, fun f y hy => ?_⟩
    have := hleast f (mem_allFin.mpr (State.candidateAt_iff.mpr ⟨y, hy⟩))
    rwa [State.dueKey_of_station (due_iff.mp hx).1, State.dueKey_of_station (due_iff.mp hy).1, Prod.Lex.toLex_le_toLex] at this

/-! ## The Arbiter's order (R50, R51) -/

theorem State.oldestOf_least {s : State} {l : LineId} {r : RingId} :
    ((s.line l).oldest (allFin (s.grantEligibleOf l r)) = none → ∀ j y, Grantable s l j y → y.ring ≠ r)
    ∧ ∀ i, (s.line l).oldest (allFin (s.grantEligibleOf l r)) = some i → ∃ x, Grantable s l i x ∧ x.ring = r
      ∧ ∀ j y, Grantable s l j y → y.ring = r → x.age ≤ y.age := by
  have hmem : ∀ {j y}, Grantable s l j y → y.ring = r → j ∈ allFin (s.grantEligibleOf l r) := fun h hr =>
    mem_allFin.mpr (State.grantEligibleOf_iff.mpr ⟨_, h, hr⟩)
  obtain ⟨hempty, hleast⟩ := (s.line l).oldest_least (is := allFin (s.grantEligibleOf l r)) fun i hi =>
    (State.grantEligibleOf_iff.mp (mem_allFin.mp hi)).imp fun x hx => hx.1.1
  refine ⟨fun hn j y hy hr => ?_, fun i hi => ?_⟩
  · exact absurd (hempty hn ▸ hmem hy hr) (by simp)
  · obtain ⟨hin, hle⟩ := hleast i hi
    obtain ⟨x, hx, hr⟩ := State.grantEligibleOf_iff.mp (mem_allFin.mp hin)
    refine ⟨x, hx, hr, fun j y hy hyr => ?_⟩
    have := hle j (hmem hy hyr)
    rwa [Line.ageAt_of_slot hx.1, Line.ageAt_of_slot hy.1] at this

/-- A class from which nothing is granted has no slot that may be granted. -/
theorem State.grantInClass_none {s : State} {l : LineId} {c : ClassId} (h : s.grantInClass l c = none) :
    ∀ j y, Grantable s l j y → 1 ≤ y.ring.val → s.ringClass c y.ring = false := by
  intro j y hy hr
  rw [State.grantInClass, Option.map_eq_none_iff, List.findSome?_eq_none_iff] at h
  have := h y.ring ((mem_roundRobin _ _).mpr hr)
  split at this
  · exact absurd rfl (State.oldestOf_least.1 this j y hy)
  · next hc => simpa using hc

/-- What is granted in a class: the rings in turn, of a ring the oldest slot. -/
theorem State.grantInClass_first {s : State} {l : LineId} {c d : ClassId} {i : SlotId} (h : s.grantInClass l c = some (d, i)) :
    d = c ∧ ∃ x, Grantable s l i x ∧ s.ringClass c x.ring = true
      ∧ (∀ j y, Grantable s l j y → s.ringClass c y.ring = true → 1 ≤ y.ring.val →
          rankAfter (vget (s.line l).arbLast c) x.ring ≤ rankAfter (vget (s.line l).arbLast c) y.ring)
      ∧ ∀ j y, Grantable s l j y → y.ring = x.ring → x.age ≤ y.age := by
  obtain ⟨j, hj, e⟩ := Option.map_eq_some_iff.mp h
  obtain ⟨rfl, rfl⟩ := Prod.mk.inj e
  obtain ⟨r, -, hrj, hfirst⟩ := findSome?_first (roundRobin_pairwise _) hj
  split at hrj
  · next hc =>
    obtain ⟨x, hx, rfl, hage⟩ := State.oldestOf_least.2 j hrj
    refine ⟨rfl, x, hx, hc, fun k y hy hyc hyr => rankAfter_le_of_first (hfirst y.ring ((mem_roundRobin _ _).mpr hyr) ?_), hage⟩
    rw [if_pos hyc]
    exact fun hn => State.oldestOf_least.1 hn k y hy rfl
  · cases hrj

/-- The steps of the Arbiter before the one that gives its candidate give none (R50). -/
theorem State.arbiterChoice_cases (s : State) (l : LineId) :
    (∃ p, s.grantInClass l 0 = some p ∧ s.arbiterChoice l = some (.slot p.1 p.2))
    ∨ s.grantInClass l 0 = none ∧ ((∃ k, s.pollCandidate l = some k ∧ s.arbiterChoice l = some k)
      ∨ s.pollCandidate l = none ∧ ((∃ p, s.grantInClass l 1 = some p ∧ s.arbiterChoice l = some (.slot p.1 p.2))
        ∨ s.grantInClass l 1 = none ∧ ((∃ p, s.grantInClass l 2 = some p ∧ s.arbiterChoice l = some (.slot p.1 p.2))
          ∨ s.grantInClass l 2 = none ∧ ((∃ p, s.grantInClass l 3 = some p ∧ s.arbiterChoice l = some (.slot p.1 p.2))
            ∨ s.grantInClass l 3 = none ∧ s.arbiterChoice l = none)))) := by
  unfold State.arbiterChoice
  rcases h0 : s.grantInClass l 0 with - | p
  · refine .inr ⟨rfl, ?_⟩
    rcases hp : s.pollCandidate l with - | k
    · refine .inr ⟨rfl, ?_⟩
      rcases h1 : s.grantInClass l 1 with - | p
      · refine .inr ⟨rfl, ?_⟩
        rcases h2 : s.grantInClass l 2 with - | p
        · refine .inr ⟨rfl, ?_⟩
          rcases h3 : s.grantInClass l 3 with - | p
          · exact .inr ⟨rfl, by simp [h0, h1, h2, h3]⟩
          · exact .inl ⟨p, rfl, by simp [h0, h1, h2, h3]⟩
        · exact .inl ⟨p, rfl, by simp [h0, h1, h2]⟩
      · exact .inl ⟨p, rfl, by simp [h0, h1]⟩
    · exact .inl ⟨k, rfl, by simp [h0]⟩
  · exact .inl ⟨p, rfl, by simp [h0]⟩

theorem State.pollCandidate_none {s : State} {l : LineId} (h : s.pollCandidate l = none) : ∀ e x, ¬ Pollable s l e x := by
  rintro e x ⟨hr, hs, hd⟩
  simp only [State.pollCandidate, hr, hs, beq_self_eq_true, Bool.and_self, if_true, Option.map_eq_none_iff] at h
  exact State.scanChoice_least.1 h e x hd

/-- The slot granted in class `c` is the Arbiter's, where no lower class and no poll comes before it. -/
theorem State.grantedSlot_order {s : State} {l : LineId} {c d : ClassId} {i : SlotId} (h : s.grantInClass l c = some (d, i))
    (hlower : ∀ b < c, s.grantInClass l b = none) (hpoll : c ≠ 0 → s.pollCandidate l = none) :
    d = c ∧ ∃ x, Grantable s l i x ∧ s.ringClass c x.ring = true
      ∧ (∀ j y, Grantable s l j y → ∀ d, s.ringClass d y.ring = true → 1 ≤ y.ring.val → c ≤ d)
      ∧ (c ≠ 0 → ∀ e x, ¬ Pollable s l e x)
      ∧ (∀ j y, Grantable s l j y → s.ringClass c y.ring = true → 1 ≤ y.ring.val →
          rankAfter (vget (s.line l).arbLast c) x.ring ≤ rankAfter (vget (s.line l).arbLast c) y.ring)
      ∧ ∀ j y, Grantable s l j y → y.ring = x.ring → x.age ≤ y.age := by
  obtain ⟨hd, x, hx, hc, hrank, hage⟩ := State.grantInClass_first h
  refine ⟨hd, x, hx, hc, fun j y hy b hb hr => ?_, fun hne => State.pollCandidate_none (hpoll hne), hrank, hage⟩
  by_contra hlt
  simp [State.grantInClass_none (hlower b (not_le.mp hlt)) j y hy hr] at hb

/-- The slot the Arbiter chooses, with the steps before its class. -/
theorem State.arbiterChoice_slot {s : State} {l : LineId} {c : ClassId} {i : SlotId} (h : s.arbiterChoice l = some (.slot c i)) :
    s.grantInClass l c = some (c, i) ∧ (∀ b < c, s.grantInClass l b = none) ∧ (c ≠ 0 → s.pollCandidate l = none) := by
  have hclass : ∀ {d : ClassId} {p : ClassId × SlotId}, s.grantInClass l d = some p → s.arbiterChoice l = some (.slot p.1 p.2) →
      d = c ∧ s.grantInClass l c = some (c, i) := by
    rintro d ⟨e, j⟩ hp hk
    obtain ⟨rfl, rfl⟩ : c = e ∧ i = j := by simpa [h] using hk
    obtain rfl := (State.grantInClass_first hp).1
    exact ⟨rfl, hp⟩
  rcases s.arbiterChoice_cases l with ⟨p, hp, hk⟩ | ⟨h0, ⟨k, hk, hc⟩ | ⟨hpoll, hrest⟩⟩
  · obtain ⟨rfl, hg⟩ := hclass hp hk
    exact ⟨hg, fun b hb => absurd hb (by simp), fun hne => absurd rfl hne⟩
  · obtain ⟨-, -, e, -, rfl⟩ := State.pollCandidate_some hk
    simp [h] at hc
  · rcases hrest with ⟨p, hp, hk⟩ | ⟨h1, ⟨p, hp, hk⟩ | ⟨h2, ⟨p, hp, hk⟩ | ⟨h3, hnone⟩⟩⟩
    · obtain ⟨rfl, hg⟩ := hclass hp hk
      exact ⟨hg, fun b hb => (show ∀ b : ClassId, b < 1 → b = 0 by decide) b hb ▸ h0, fun _ => hpoll⟩
    · obtain ⟨rfl, hg⟩ := hclass hp hk
      refine ⟨hg, fun b hb => ?_, fun _ => hpoll⟩
      obtain rfl | rfl := (show ∀ b : ClassId, b < 2 → b = 0 ∨ b = 1 by decide) b hb
      exacts [h0, h1]
    · obtain ⟨rfl, hg⟩ := hclass hp hk
      refine ⟨hg, fun b hb => ?_, fun _ => hpoll⟩
      obtain rfl | rfl | rfl := (show ∀ b : ClassId, b < 3 → b = 0 ∨ b = 1 ∨ b = 2 by decide) b hb
      exacts [h0, h1, h2]
    · simp [h] at hnone

/-- The station the Arbiter chooses, with class 0 before it. -/
theorem State.arbiterChoice_poll {s : State} {l : LineId} {e : EntryId} (h : s.arbiterChoice l = some (.poll e)) :
    (s.line l).run = .running ∧ (s.line l).scanner.state = .holding ∧ s.scanChoice l = some e ∧ s.grantInClass l 0 = none := by
  rcases s.arbiterChoice_cases l with ⟨p, hp, hk⟩ | ⟨h0, ⟨k, hk, hc⟩ | ⟨-, hrest⟩⟩
  · simp [h] at hk
  · obtain ⟨hr, hs, f, hf, rfl⟩ := State.pollCandidate_some hk
    obtain rfl : e = f := by simpa [h] using hc
    exact ⟨hr, hs, hf, h0⟩
  · rcases hrest with ⟨p, hp, hk⟩ | ⟨-, ⟨p, hp, hk⟩ | ⟨-, ⟨p, hp, hk⟩ | ⟨-, hk⟩⟩⟩ <;> simp [h] at hk

theorem State.arbiterChoice_none {s : State} {l : LineId} (h : s.arbiterChoice l = none) :
    s.pollCandidate l = none ∧ ∀ c, s.grantInClass l c = none := by
  rcases s.arbiterChoice_cases l with ⟨p, hp, hk⟩ | ⟨h0, ⟨k, hk, hc⟩ | ⟨hpoll, hrest⟩⟩
  · simp [h] at hk
  · simp [h] at hc
  · rcases hrest with ⟨p, hp, hk⟩ | ⟨h1, ⟨p, hp, hk⟩ | ⟨h2, ⟨p, hp, hk⟩ | ⟨h3, hk⟩⟩⟩
    any_goals simp [h] at hk
    refine ⟨hpoll, fun c => ?_⟩
    obtain rfl | rfl | rfl | rfl := (show ∀ c : ClassId, c = 0 ∨ c = 1 ∨ c = 2 ∨ c = 3 by decide) c
    exacts [h0, h1, h2, h3]

/-- Settles O3. -/
theorem arbiterOrder : Obligations.ArbiterOrder := by
  intro s l
  refine ⟨fun c i h => ?_, fun e h => ?_, fun h => ?_⟩
  · obtain ⟨hg, hlower, hpoll⟩ := State.arbiterChoice_slot h
    exact (State.grantedSlot_order hg hlower hpoll).2
  · obtain ⟨hr, hs, hc, h0⟩ := State.arbiterChoice_poll h
    obtain ⟨x, hx, hleast⟩ := State.scanChoice_least.2 e hc
    exact ⟨x, ⟨hr, hs, hx⟩, State.grantInClass_none h0, fun f y hy => hleast f y hy.2.2⟩
  · obtain ⟨hpoll, hclass⟩ := State.arbiterChoice_none h
    exact ⟨State.pollCandidate_none hpoll, fun j y hy hr d => State.grantInClass_none (hclass d) j y hy hr⟩

/-! ## The grant (R50, R52, R110) -/

theorem satSucc_eq_min (n : Nat) : satSucc 4294967295 n = min 4294967295 (n + 1) := satSucc_eq _ _

theorem Line.isClocked_of_config {x : Line} {g : LineConfig} (h : x.config = some g) : x.isClocked = decide (g.mode = .clocked) := by
  rw [Line.isClocked, h]
  exact Bool.beq_eq_decide_eq _ _

theorem Line.beginExchange_eq {x : Line} {g : LineConfig} (h : x.config = some g) (now : Nat) (a : Attempt) :
    x.beginExchange now a = granted g now a x := by
  have hclocked := Line.isClocked_of_config h
  unfold Line.beginExchange granted
  rw [h]
  by_cases hlead : g.lead = 0
  · simp [hlead, h, Line.beginSending, Line.beginCharacter, Line.isClocked, frameMark, satSucc_eq_min, RxRecord.empty, beq_eq_decide]
  · simp [hlead, hclocked, satSucc_eq_min, RxRecord.empty]

/-- The CTRL character of a request, field by field (R9). -/
theorem requestCtrl_fields : ∀ (k : ReqKind) (toggle sync : Bool),
    (requestCtrl k toggle sync).extractLsb' 0 3 = k.code ∧ (requestCtrl k toggle sync).getLsbD 3 = toggle
      ∧ (requestCtrl k toggle sync).getLsbD 4 = sync ∧ (requestCtrl k toggle sync).extractLsb' 5 3 = 0#3 := by
  intro k toggle sync
  cases k <;> cases toggle <;> cases sync <;> decide

theorem requests_requestFrame {a : Attempt} {k : ReqKind} {toggle : Bool} {payload : List Byte}
    (h : a.frame = requestFrame a.addr k toggle a.sync payload) : Requests a k.code.toNat (toggle = true) payload := by
  obtain ⟨hkind, htoggle, hsync, hzero⟩ := requestCtrl_fields k toggle a.sync
  exact ⟨requestCtrl k toggle a.sync, by rw [hkind], by rw [htoggle], hsync, hzero, h⟩

theorem subRecKind_code (r : SubRec) : (subRecKind r).code.toNat = if r.kind = 1 then 1 else if r.kind = 3 then 3 else 2 := by
  unfold subRecKind SubRec.isFetch SubRec.isPoll
  simp only [beq_iff_eq]
  split_ifs <;> rfl

theorem Slot.requestPayload_eq (y : Slot) : y.requestPayload =
    if y.sub.kind = 1 then y.sub.params.take y.sub.paramCount.toNat else if y.sub.kind = 3 then [] else y.payload := by
  simp [Slot.requestPayload, SubRec.isFetch, SubRec.isPoll]

theorem State.slotAttempt_sync_iff {s : State} {l : LineId} {i : SlotId} {y : Slot} :
    (s.slotAttempt l i y).sync = true ↔ ∃ st ∈ s.keyed l y.sub.addr.toNat, st.syncNeeded = true ∨ y.sub.sync = true := by
  change (match s.keyed l y.addr with | some st => st.syncNeeded || y.sub.sync | none => false) = true ↔ ∃ st ∈ s.keyed l y.addr, _
  cases s.keyed l y.addr <;> simp

/-- The toggle of a slot's request: that of the entry, unless it is a sync request (R14, R52). -/
def State.slotToggle (s : State) (l : LineId) (i : SlotId) (y : Slot) : Bool :=
  match s.keyed l y.addr with
  | some st => !(s.slotAttempt l i y).sync && st.toggle
  | none => false

theorem State.slotToggle_iff {s : State} {l : LineId} {i : SlotId} {y : Slot} :
    s.slotToggle l i y = true ↔ (s.slotAttempt l i y).sync = false ∧ ∃ st ∈ s.keyed l y.sub.addr.toNat, st.toggle = true := by
  change _ ↔ _ ∧ ∃ st ∈ s.keyed l y.addr, _
  unfold State.slotToggle
  split
  · next st hk => simp [hk]
  · next hk => simp [hk]

theorem State.requests_slotAttempt {s : State} {l : LineId} {i : SlotId} {y : Slot} :
    Requests (s.slotAttempt l i y) (subRecKind y.sub).code.toNat (s.slotToggle l i y = true) y.requestPayload :=
  requests_requestFrame rfl

theorem State.grantSlot_eq {s : State} {l : LineId} {c : ClassId} {i : SlotId} {y : Slot} {g : LineConfig} (hy : s.slot l i = some y)
    (hg : (s.line l).config = some g) : s.grantSlot l c i = s.setLine l (granted g s.nowUs (s.slotAttempt l i y)
      { (s.line l).setSlot i (some { y with state := .active, syncAttempt := (s.slotAttempt l i y).sync }) with
        arbLast := vput (s.line l).arbLast c (some y.ring) }) := by
  unfold State.grantSlot
  rw [hy]
  dsimp only
  rw [State.modSlot_eq hy, State.modLine, State.line_putSlot, State.putSlot, State.setLine_setLine,
    ← Line.beginExchange_eq (x := { (s.line l).setSlot i _ with arbLast := _ }) hg]
  rfl

theorem State.grantPoll_eq {s : State} {l : LineId} {e : EntryId} {st : Station} {g : LineConfig} (hst : s.station e = some st)
    (hg : (s.line l).config = some g) : s.grantPoll l e = s.setLine l (granted g s.nowUs (scanAttempt st)
      { s.line l with scanner := { (s.line l).scanner with state := .polling, polled := some (e, (scanAttempt st).sync) } }) := by
  unfold State.grantPoll
  rw [hst]
  dsimp only
  have h := Line.beginExchange_eq (x := { s.line l with
    scanner := { (s.line l).scanner with state := .polling, polled := some (e, (scanAttempt st).sync) } }) hg s.nowUs (scanAttempt st)
  rw [← h]
  rfl

theorem State.enabled_grant_iff {s : State} {l : LineId} : s.enabled (.grant l) = true ↔
    s.device = .running ∧ (s.line l).phase = some .idle ∧ ((s.line l).run = .running ∨ (s.line l).run = .stopping)
      ∧ s.arbiterChoice l ≠ none := by
  simp only [State.enabled, State.mayGrant, Bool.and_eq_true, Bool.or_eq_true, beq_iff_eq, Option.isSome_iff_ne_none, and_assoc]

/-- Settles O4. -/
theorem grantComposesTheRequest : Obligations.GrantComposesTheRequest := by
  intro s l
  refine ⟨State.enabled_grant_iff, fun g hg => ⟨fun c i h y hy => ?_, fun e h st hst => ?_⟩⟩
  · refine ⟨s.slotAttempt l i y, rfl, rfl, State.slotAttempt_sync_iff, ?_, ?_⟩
    · rw [← subRecKind_code, ← Slot.requestPayload_eq, ← propext State.slotToggle_iff]
      exact State.requests_slotAttempt
    · change s.grantLine l = _
      rw [State.grantLine, h]
      exact State.grantSlot_eq hy hg
  · refine ⟨scanAttempt st, rfl, rfl, by simp [scanAttempt], ?_, ?_⟩
    · have htoggle : (!(scanAttempt st).sync && st.toggle) = true ↔ (scanAttempt st).sync = false ∧ st.toggle = true := by simp
      rw [← propext htoggle]
      exact requests_requestFrame (k := .poll) rfl
    · change s.grantLine l = _
      rw [State.grantLine, h]
      exact State.grantPoll_eq hst hg

end Sys2Proof.Machine

/-! # How the acts are taken, and what the Intake, the Admin Processor and the Scanner claim (chapters 3, 6, 7 and 8) -/

namespace Sys2Proof.Machine

open Sys2Proof.Claims

/-! ## The act taken next -/

theorem mem_consequences (a : Act) : a ∈ consequences ↔ Follows a := by cases a <;> simp [consequences, Follows]

theorem mem_claims {a : Act} (h : ¬ Follows a) : a ∈ claims := by cases a <;> simp_all [claims, Follows]

theorem claims_nodup : claims.Nodup := by decide

/-- No act that follows without a claim is enabled, where none is found. -/
theorem State.consequences_disabled {s : State} (h : consequences.find? s.enabled = none) : ∀ b, Follows b → s.enabled b = false :=
  fun b hb => by simpa using List.find?_eq_none.mp h b ((mem_consequences b).mpr hb)

theorem State.nextAct_eq_none {s : State} : s.nextAct = none ↔ ∀ a, s.enabled a = false := by
  refine ⟨fun h => ?_, fun h => ?_⟩
  · unfold State.nextAct at h
    split at h
    · cases h
    · next hc =>
      split at h
      · next hn =>
        intro a
        by_cases ha : Follows a
        · exact s.consequences_disabled hc a ha
        · simpa using List.filter_eq_nil_iff.mp hn a (mem_claims ha)
      · split at h <;> cases h
  · cases hn : s.nextAct with
    | none => rfl
    | some p => exact absurd (State.nextAct_enabled (free := p.2) hn) (by simp [h])

/-! ## Rivals (R50, R138, R140) -/

theorem sameSome_iff {α : Type} [DecidableEq α] {a b : Option α} : sameSome a b = true ↔ ∃ v, a = some v ∧ b = some v := by
  cases a <;> cases b <;> simp [sameSome, eq_comm]

theorem State.canReserve_iff {s : State} {q : CRingId} : s.canReserve q = true ↔ Place s q := by
  unfold State.canReserve Place
  cases s.cring q with
  | none => simp
  | some c => exact ⟨fun h => ⟨c, rfl, of_decide_eq_true h⟩, fun ⟨d, hd, h⟩ => decide_eq_true (Option.some.inj hd ▸ h)⟩

theorem State.place_of_scarce {s : State} {acts : List Act} {q : CRingId} (h : s.scarce acts q = true) : Place s q := by
  unfold State.scarce at h
  split at h
  · next c hc =>
    have hfree : 0 < c.free := (of_decide_eq_true h).1
    unfold CRing.free ringSize at hfree
    exact ⟨c, hc, by omega⟩
  · cases h

theorem State.rivals_of_compete {s : State} {acts : List Act} {a b : Act} (h : s.compete acts a b = true) : Rivals s a b := by
  simp only [State.compete, Bool.or_eq_true, Bool.and_eq_true, sameSome_iff] at h
  rcases h with (⟨⟨q, ha, hb⟩, hs⟩ | h) | h
  · rw [ha] at hs
    exact .inl ⟨q, State.place_of_scarce hs, ha, hb⟩
  · exact .inr (.inl h)
  · exact .inr (.inr h)

theorem rivals_comm {s : State} {a b : Act} (h : Rivals s a b) : Rivals s b a :=
  h.imp (fun ⟨q, hp, ha, hb⟩ => ⟨q, hp, hb, ha⟩) (Or.imp (fun ⟨q, ha, hb⟩ => ⟨q, hb, ha⟩) fun ⟨l, ha, hb⟩ => ⟨l, hb, ha⟩)

/-- A free choice is one between the first claim and those that compete with it. -/
theorem State.nextAct_free {s : State} {a : Act} (h : s.nextAct = some (a, true)) : ∃ b, b ≠ a ∧ s.enabled b = true ∧ Rivals s a b := by
  unfold State.nextAct at h
  split at h
  · cases h
  · split at h
    · cases h
    · next first rest hl =>
      split at h
      · cases h
      · next c more hm =>
        have hnodup : (first :: rest).Nodup := hl ▸ claims_nodup.filter _
        have henabled : ∀ x ∈ first :: rest, s.enabled x = true := fun x hx => (List.mem_filter.mp (hl ▸ hx)).2
        have hrival : ∀ x ∈ c :: more, x ∈ rest ∧ Rivals s first x := fun x hx => by
          obtain ⟨hr, hc⟩ := List.mem_filter.mp (hm ▸ hx)
          exact ⟨hr, State.rivals_of_compete hc⟩
        have hne : ∀ x ∈ rest, x ≠ first := fun x hx e => (List.nodup_cons.mp hnodup).1 (e ▸ hx)
        have ha : a ∈ first :: c :: more := by
          obtain ⟨e, -⟩ := Prod.mk.inj (Option.some.inj h)
          have hlt : Config.raceWinner s.choices % (more.length + 2) < (first :: c :: more).length := Nat.mod_lt _ (by omega)
          rw [← e, List.getD_eq_getElem _ _ hlt]
          exact List.getElem_mem hlt
        rcases List.mem_cons.mp ha with rfl | ha
        · obtain ⟨hc, hr⟩ := hrival c (by simp)
          exact ⟨c, hne c hc, henabled c (by simp [hc]), hr⟩
        · obtain ⟨hc, hr⟩ := hrival a ha
          exact ⟨first, (hne a hc).symm, henabled first (by simp), rivals_comm hr⟩

theorem State.nextAct_follows {s : State} {a : Act} {free : Bool} (h : s.nextAct = some (a, free)) :
    Follows a ∨ ∀ b, Follows b → s.enabled b = false := by
  unfold State.nextAct at h
  split at h
  · next b hb =>
    cases h
    exact .inl ((mem_consequences a).mp (List.mem_of_find?_eq_some hb))
  · next hc => exact .inr (s.consequences_disabled hc)

/-! ## The acts of one step -/

theorem State.reactFor_succ {s : State} {a : Act} {free : Bool} (h : s.nextAct = some (a, free)) (n : Nat) :
    State.reactFor (n + 1) s = State.reactFor n ((s.perform a).choiceTaken free) := by
  rw [State.reactFor, h]

/-- At most `n` acts, fewer only where none is enabled any more. -/
theorem State.reactFor_acts : ∀ (n : Nat) (s : State),
    ∃ k ≤ n, Acts k s (State.reactFor n s) ∧ (k < n → ∀ a, (State.reactFor n s).enabled a = false)
  | 0, s => ⟨0, le_rfl, .done s, fun h => absurd h (by simp)⟩
  | n + 1, s => by
    cases hn : s.nextAct with
    | none =>
      have e : State.reactFor (n + 1) s = s := by rw [State.reactFor, hn]
      rw [e]
      exact ⟨0, by omega, .done s, fun _ => State.nextAct_eq_none.mp hn⟩
    | some p =>
      obtain ⟨a, free⟩ := p
      obtain ⟨k, hk, hacts, hend⟩ := State.reactFor_acts n ((s.perform a).choiceTaken free)
      rw [State.reactFor_succ hn]
      exact ⟨k + 1, by omega, .act k s _ a free hn hacts, fun h => hend (by omega)⟩

/-! ## The Intake (R40, R41, R123) -/

theorem State.eligible_iff {s : State} {l : LineId} {r : RingId} : s.intakeEligible l r = true ↔ Eligible s l r := by
  rw [State.intakeEligible_iff]
  simp only [State.canReserve_iff]
  constructor
  · rintro ⟨x, hx, hd, ha, hb, hne, hr, hi, hread, hf, hfence, hp⟩
    exact ⟨hd, hr, hi, hread, x, hx, ha, hb, hne, hf, hfence, hp⟩
  · rintro ⟨hd, hr, hi, hread, x, hx, ha, hb, hne, hf, hfence, hp⟩
    exact ⟨x, hx, hd, ha, hb, hne, hr, hi, hread, hf, hfence, hp⟩

theorem State.intakeInClass_eq_none {s : State} {l : LineId} {c : ClassId} (h : s.intakeInClass l c = none) {r : RingId}
    (hr : 1 ≤ r.val) (hc : s.ringClass c r = true) : ¬ Eligible s l r := by
  rw [State.intakeInClass, Option.map_eq_none_iff, List.find?_eq_none] at h
  have := h r ((mem_roundRobin _ _).mpr hr)
  rw [hc, Bool.true_and, State.eligible_iff] at this
  exact this

theorem State.intakeInClass_first {s : State} {l : LineId} {c d : ClassId} {r : RingId} (h : s.intakeInClass l c = some (d, r)) :
    d = c ∧ 1 ≤ r.val ∧ s.ringClass c r = true ∧ Eligible s l r ∧ ∀ q : RingId, 1 ≤ q.val → s.ringClass c q = true → Eligible s l q →
      rankAfter (vget (s.line l).intakeLast c) r ≤ rankAfter (vget (s.line l).intakeLast c) q := by
  obtain ⟨k, hk, e⟩ := Option.map_eq_some_iff.mp h
  obtain ⟨rfl, rfl⟩ := Prod.mk.inj e
  have hfound := List.find?_some hk
  rw [Bool.and_eq_true, State.eligible_iff] at hfound
  refine ⟨rfl, (mem_roundRobin _ _).mp (List.mem_of_find?_eq_some hk), hfound.1, hfound.2, fun q hq hcq heq => ?_⟩
  refine rankAfter_le_of_first (find?_first (roundRobin_pairwise _) hk q ((mem_roundRobin _ _).mpr hq) ?_)
  rw [hcq, State.eligible_iff.mpr heq]
  rfl

theorem mem_classes : ∀ c : ClassId, c ∈ ([0, 1, 2, 3] : List ClassId) := by decide

theorem State.intakeChoice_first {s : State} {l : LineId} {c : ClassId} {r : RingId} (h : s.intakeChoice l = some (c, r)) :
    1 ≤ r.val ∧ s.ringClass c r = true ∧ Eligible s l r ∧ ∀ (d : ClassId) (q : RingId), 1 ≤ q.val → s.ringClass d q = true → Eligible s l q →
      c ≤ d ∧ (c = d → rankAfter (vget (s.line l).intakeLast c) r ≤ rankAfter (vget (s.line l).intakeLast c) q) := by
  obtain ⟨d, -, hd, hfirst⟩ := findSome?_first (R := (· < ·)) (by decide) h
  obtain ⟨rfl, hr, hc, he, hrank⟩ := State.intakeInClass_first hd
  refine ⟨hr, hc, he, fun b q hq hb heq => ⟨?_, fun e => hrank q hq (e ▸ hb) heq⟩⟩
  rcases hfirst b (mem_classes b) fun hn => State.intakeInClass_eq_none hn hq hb heq with e | e
  · exact e.le
  · exact le_of_lt e

theorem State.enabled_intake_iff {s : State} {l : LineId} :
    s.enabled (.intake l) = true ↔ ∃ c r, 1 ≤ r.val ∧ s.ringClass c r = true ∧ Eligible s l r := by
  change (s.intakeChoice l).isSome = true ↔ _
  constructor
  · intro h
    obtain ⟨⟨c, r⟩, hp⟩ := Option.isSome_iff_exists.mp h
    obtain ⟨hr, hc, he, -⟩ := State.intakeChoice_first hp
    exact ⟨c, r, hr, hc, he⟩
  · rintro ⟨c, r, hr, hc, he⟩
    rw [Option.isSome_iff_ne_none]
    intro hn
    exact State.intakeInClass_eq_none (List.findSome?_eq_none_iff.mp hn c (mem_classes c)) hr hc he

theorem SubRing.placeAddr_eq (x : SubRing) (i : Nat) : x.placeAddr i = BitVec.ofNat 64 (x.base.toNat + 32 * i) := by
  rw [SubRing.placeAddr, BitVec.ofNat_add, BitVec.ofNat_toNat, BitVec.setWidth_eq]

theorem State.beginIntake_eq {s : State} {l : LineId} {c : ClassId} {r : RingId} {y : SubRing} (h : s.intakeChoice l = some (c, r))
    (hy : s.ring r = some y) : s.beginIntake l = (reserved s y.cring).setLine l { s.line l with
      intakeLast := vput (s.line l).intakeLast c (some r)
      read := some ⟨r, y.head, BitVec.ofNat 64 (y.base.toNat + 32 * y.head), []⟩ } := by
  rw [State.beginIntake, h]
  dsimp only
  rw [hy]
  dsimp only
  rw [SubRing.placeAddr_eq]
  rfl

/-! ## The Admin Processor's record read (R134) -/

theorem State.enabled_adminRead_iff {s : State} : s.enabled .adminRead = true ↔ s.device = .running ∧ s.admin.phase = .idle
    ∧ (∃ y ∈ s.ring 0, y.state = .active ∧ y.head ≠ y.tail) ∧ Place s 0 := by
  change s.adminMayRead = true ↔ _
  rw [← State.canReserve_iff]
  unfold State.adminMayRead
  cases s.ring 0 <;> simp [and_assoc]

theorem State.beginAdminRead_eq {s : State} {y : SubRing} (hy : s.ring 0 = some y) : s.beginAdminRead = { reserved s 0 with
    admin := ⟨.reading, none, false, some ⟨y.head, BitVec.ofNat 64 (y.base.toNat + 32 * y.head)⟩⟩ } := by
  rw [State.beginAdminRead, hy, Option.map_some, SubRing.placeAddr_eq]
  rfl

/-! ## The Scanner's reservation (R109) -/

theorem State.enabled_scanClaim_iff {s : State} {l : LineId} : s.enabled (.scanClaim l) = true ↔ s.device = .running
    ∧ (s.line l).run = .running ∧ (s.line l).scanner.state = .idle ∧ (s.line l).scanner.refused = false ∧ ∃ e st, Due s l e st := by
  change s.scanMayClaim l = true ↔ _
  simp only [State.scanMayClaim, Bool.and_eq_true, beq_iff_eq, Bool.not_eq_true', State.hasCandidate_iff, and_assoc]
  have hring : (∃ e st, Due s l e st) → (s.line l).noticeRing.isSome = true := by
    rintro ⟨e, st, -, -, -, -, ⟨g, hg, hr⟩, -⟩
    rw [Line.noticeRing, Option.mem_def.mp hg]
    exact Option.isSome_iff_ne_none.mpr hr
  exact ⟨fun ⟨hd, hr, hs, hf, _, hc⟩ => ⟨hd, hr, hs, hf, hc⟩, fun ⟨hd, hr, hs, hf, hc⟩ => ⟨hd, hr, hs, hf, hring hc, hc⟩⟩

theorem Line.noticeRing_eq {x : Line} {g : LineConfig} {q : CRingId} (hg : x.config = some g) (hq : g.noticeRing = some q) :
    x.noticeRing = some q := by rw [Line.noticeRing, hg, Option.bind_some, hq]

theorem State.scanClaimPlace_granted {s : State} {l : LineId} {q : CRingId} (h : (s.line l).noticeRing = some q) (hp : Place s q) :
    s.scanClaimPlace l = (reserved s q).setLine l { s.line l with
      scanner := { (s.line l).scanner with state := .holding, reservation := some q } } := by
  rw [State.scanClaimPlace, h]
  dsimp only
  rw [if_pos (State.canReserve_iff.mpr hp)]
  rfl

theorem State.scanClaimPlace_refused {s : State} {l : LineId} {q : CRingId} (h : (s.line l).noticeRing = some q) (hp : ¬ Place s q) :
    s.scanClaimPlace l = s.setLine l { s.line l with
      scanner := { (s.line l).scanner with refused := true }
      counters := { (s.line l).counters with scanStarves := min 4294967295 ((s.line l).counters.scanStarves + 1) } } := by
  rw [State.scanClaimPlace, h]
  dsimp only
  rw [if_neg (hp ∘ State.canReserve_iff.mp), ← satSucc_eq_min]
  rfl

theorem State.enabled_scanReturn_iff {s : State} {l : LineId} : s.enabled (.scanReturn l) = true ↔
    s.device = .running ∧ (s.line l).scanner.state = .holding ∧ ∀ e st, ¬ Due s l e st := by
  change s.scanMustReturn l = true ↔ _
  simp only [State.scanMustReturn, Bool.and_eq_true, beq_iff_eq, Bool.not_eq_true', State.hasCandidate_eq_false, and_assoc]

/-- The Scanner of line `l` put in IDLE and its place in ring `q` given back (R109, R141). -/
def State.pollReturned (s : State) (l : LineId) (q : CRingId) : State :=
  (s.modLine l fun x => { x with
    scanner := { (s.line l).scanner with state := .idle, reservation := none, polled := none } }).returnReservation q

theorem State.line_pollReturned_same (s : State) (l : LineId) (q : CRingId) : (s.pollReturned l q).line l =
    { s.line l with scanner := { (s.line l).scanner with
        state := .idle, reservation := none, polled := none
        refused := (s.line l).scanner.refused && !((s.line l).noticeRing == some q) } } := by
  rw [State.pollReturned, State.returnReservation, State.line_gainPlace, Line.placeGained_refused, State.modCRing_line_frame]
  simp only [State.line_modLine_same]
  rfl

theorem State.line_pollReturned_ne (s : State) {l m : LineId} (q : CRingId) (h : m ≠ l) : (s.pollReturned l q).line m =
    { s.line m with scanner := { (s.line m).scanner with
        refused := (s.line m).scanner.refused && !((s.line m).noticeRing == some q) } } := by
  rw [State.pollReturned, State.returnReservation, State.line_gainPlace, Line.placeGained_refused, State.modCRing_line_frame,
    State.line_modLine_ne _ _ h]

theorem State.returned_pollReturned (s : State) (l : LineId) (q : CRingId) : Returned s (s.pollReturned l q) l q := by
  have hsame := s.line_pollReturned_same l q
  refine ⟨by rw [hsame], by rw [hsame], by rw [hsame], rfl, fun m => ?_, fun m hm => ?_⟩
  · by_cases e : m = l
    · subst e; rw [hsame]
    · rw [s.line_pollReturned_ne q e]
  · rw [s.line_pollReturned_ne q hm]

theorem State.pollReturned_frame (s : State) (l : LineId) (q : CRingId) : Returned s (s.pollReturned l q) l q
    ∧ s.pollReturned l q = { s with crings := (s.pollReturned l q).crings, lines := (s.pollReturned l q).lines }
    ∧ (s.pollReturned l q).line l = { s.line l with scanner := ((s.pollReturned l q).line l).scanner }
    ∧ ((s.pollReturned l q).line l).scanner.delivery = (s.line l).scanner.delivery :=
  ⟨s.returned_pollReturned l q, rfl, by rw [s.line_pollReturned_same], by rw [s.line_pollReturned_same]⟩

theorem State.dropPoll_holding {s : State} {l : LineId} {q : CRingId} (hs : (s.line l).scanner.state = .holding)
    (hq : (s.line l).scanner.reservation = some q) : s.dropPoll l = s.pollReturned l q := by
  unfold State.dropPoll
  dsimp only
  rw [hs, hq]
  rfl

/-! ## The obligation -/

/-- Settles O5. -/
theorem claimsAreTakenInOrder : Obligations.ClaimsAreTakenInOrder := by
  refine ⟨fun s => State.nextAct_eq_none, fun s a free h => ?_, fun s => State.reactFor_acts reactLimit s, fun s l => ?_, fun s => ?_,
    fun s l => ?_⟩
  · refine ⟨State.nextAct_enabled h, State.nextAct_follows h, ?_, State.reactFor_succ h 1023⟩
    rintro rfl
    exact State.nextAct_free h
  · refine ⟨State.enabled_intake_iff, fun c r h => ?_⟩
    obtain ⟨hr, hc, he, hfirst⟩ := State.intakeChoice_first h
    exact ⟨hr, hc, he, hfirst, fun y hy => State.beginIntake_eq h hy⟩
  · exact ⟨State.enabled_adminRead_iff, fun y hy => State.beginAdminRead_eq hy⟩
  · refine ⟨State.enabled_scanClaim_iff, fun g hg q hq => ?_, State.enabled_scanReturn_iff, fun hs q hq => ?_⟩
    · have hring := Line.noticeRing_eq hg hq
      exact ⟨State.scanClaimPlace_granted hring, State.scanClaimPlace_refused hring⟩
    · have h := s.pollReturned_frame l q
      rw [← State.dropPoll_holding hs hq] at h
      exact h

end Sys2Proof.Machine

/-! # Notices and completion writes, and what follows without a claim (chapters 2 to 4 and 6 to 10) -/

namespace Sys2Proof.Machine

open Sys2Proof.Claims

/-! ## A line's completion writes (R60) -/

theorem Line.mayWrite_iff {s : State} {l : LineId} {i : SlotId} : (s.line l).mayWrite i = true ↔ ∃ x, Writable s l i x := by
  unfold Line.mayWrite Writable State.slot
  cases (s.line l).slot i with
  | none => simp
  | some x => simp [Line.behindOlder_eq_false]

theorem writable_mem {s : State} {l : LineId} {i : SlotId} {x : Slot} (h : Writable s l i x) : i ∈ allFin (s.line l).mayWrite :=
  mem_allFin.mpr (Line.mayWrite_iff.mpr ⟨x, h⟩)

/-- The slot whose completion a line writes next is the oldest that may write; there is none only while another is being written or where none
may write. -/
theorem Line.nextTxn_oldest {s : State} {l : LineId} :
    ((s.line l).txnWriter = none → (s.line l).nextTxn = none → ∀ i y, ¬ Writable s l i y)
    ∧ ∀ i, (s.line l).nextTxn = some i → (s.line l).txnWriter = none
      ∧ ∃ y, Writable s l i y ∧ ∀ j z, Writable s l j z → y.age ≤ z.age := by
  have hleast := (s.line l).oldest_least (is := allFin (s.line l).mayWrite) fun i hi =>
    (Line.mayWrite_iff.mp (mem_allFin.mp hi)).imp fun x hx => hx.1
  unfold Line.nextTxn
  cases (s.line l).txnWriter with
  | some i => exact ⟨nofun, nofun⟩
  | none =>
    refine ⟨fun _ hn i y hy => absurd (hleast.1 hn ▸ writable_mem hy) (by simp), fun i hi => ⟨rfl, ?_⟩⟩
    obtain ⟨hmem, hle⟩ := hleast.2 i hi
    obtain ⟨y, hy⟩ := Line.mayWrite_iff.mp (mem_allFin.mp hmem)
    refine ⟨y, hy, fun j z hz => ?_⟩
    have := hle j (writable_mem hz)
    rwa [Line.ageAt_of_slot hy.1, Line.ageAt_of_slot hz.1] at this

/-- A line's completion write is requested exactly of the next slot's completion ring. -/
theorem State.enabled_txn_iff {s : State} {l : LineId} : s.enabled (.txn l) = true ↔
    Works s ∧ ∃ i, (s.line l).nextTxn = some i ∧ ∃ y ∈ s.slot l i, ∃ q, s.ring y.ring = some q := by
  rw [works_iff]
  simp only [State.enabled, Bool.and_eq_true]
  refine and_congr_right fun _ => ?_
  cases (s.line l).nextTxn with
  | none => simp
  | some i => cases h : s.slot l i <;> simp [h, State.slotCRing, Option.isSome_iff_exists]

theorem State.requestTxn_eq {s : State} {l : LineId} {i : SlotId} {y : Slot} {q : SubRing} (hi : (s.line l).nextTxn = some i)
    (hy : s.slot l i = some y) (hq : s.ring y.ring = some q) :
    s.requestTxn l = requested (s.setLine l { s.line l with txnWriter := some i }) q.cring (.slot l i) := by
  rw [State.requestTxn, hi]
  dsimp only
  rw [hy, Option.bind_some, State.slotCRing, hq, Option.map_some]
  rfl

/-! ## Notices (R32, R87, R117, R118) -/

theorem State.enabled_notice_iff {s : State} {l : LineId} : s.enabled (.notice l) = true ↔ s.device = .running ∧ (s.line l).notice = none
    ∧ (∃ g ∈ (s.line l).config, ∃ q ∈ g.noticeRing, Place s q)
    ∧ ((s.line l).linePending = true ∨ ∃ e ∈ (s.line l).noticeQueue.head?, s.station e ≠ none) := by
  change s.noticeMayStart l = true ↔ _
  have hplace : (match (s.line l).noticeRing with | some r => s.canReserve r | none => false) = true
      ↔ ∃ g ∈ (s.line l).config, ∃ q ∈ g.noticeRing, Place s q := by
    unfold Line.noticeRing
    cases (s.line l).config with
    | none => simp
    | some g => cases h : g.noticeRing <;> simp [h, State.canReserve_iff]
  have htake : (s.line l).noticeWaiting = true ∧ (s.takeNotice l).isSome = true
      ↔ (s.line l).linePending = true ∨ ∃ e ∈ (s.line l).noticeQueue.head?, s.station e ≠ none := by
    unfold Line.noticeWaiting State.takeNotice
    cases hp : (s.line l).linePending with
    | true => simp [hp]
    | false =>
      cases hq : (s.line l).noticeQueue with
      | nil => simp [hp, hq]
      | cons e rest => cases h : s.station e <;> simp [hp, hq, h]
  simp only [State.noticeMayStart, Bool.and_eq_true, beq_iff_eq, Option.isNone_iff_eq_none]
  constructor
  · rintro ⟨⟨⟨⟨hd, hn⟩, hw⟩, hp⟩, ht⟩
    exact ⟨hd, hn, hplace.mp hp, htake.mp ⟨hw, ht⟩⟩
  · rintro ⟨hd, hn, hp, ht⟩
    exact ⟨⟨⟨⟨hd, hn⟩, (htake.mpr ht).1⟩, hplace.mpr hp⟩, (htake.mpr ht).2⟩

theorem State.takeNotice_line {s : State} {l : LineId} (h : (s.line l).linePending = true) :
    s.takeNotice l = some (lineNoticeRecord l (s.line l), s.setLine l { s.line l with linePending := false }) := if_pos h

theorem State.takeNotice_station {s : State} {l : LineId} {e : EntryId} {rest : List EntryId} {st : Station}
    (h : (s.line l).linePending = false) (hq : (s.line l).noticeQueue = e :: rest) (hst : s.station e = some st) :
    s.takeNotice l = some (stationNoticeRecord e st,
      (s.setLine l { s.line l with noticeQueue := rest }).setStation e (some { st with noticePending := false, changes := 0 })) := by
  unfold State.takeNotice
  dsimp only
  rw [if_neg (by simp [h]), hq]
  dsimp only
  rw [hst]

/-- A notice taken of the line `y`, in the state `u` without it, is put in hand and its write requested of ring `q`. -/
theorem State.writeNotice_eq {s u : State} {l : LineId} {q : CRingId} {y : Line} {rec : CompRecord} (hring : (s.line l).noticeRing = some q)
    (ht : s.takeNotice l = some (rec, u.setLine l y)) :
    s.writeNotice l = requested ((reserved u q).setLine l { y with notice := some ⟨q, rec⟩ }) q (.notice l) := by
  rw [State.writeNotice, hring]
  dsimp only
  rw [State.startNotice, ht]
  have hline : (((u.setLine l y).reserve q).modLine l fun x => { x with notice := some ⟨q, rec⟩ })
      = (reserved u q).setLine l { y with notice := some ⟨q, rec⟩ } := by
    rw [State.modLine, show ((u.setLine l y).reserve q).line l = y from State.line_setLine_same _ _ _]
    exact State.setLine_setLine (reserved u q) l y _
  exact congrArg (fun v => requested v q (.notice l)) hline

/-! ## The writes of a completion ring (R138) -/

theorem State.enabled_startWrite_iff {s : State} {q : CRingId} :
    s.enabled (.startWrite q) = true ↔ Works s ∧ ∃ c ∈ s.cring q, c.write = none ∧ c.waiting ≠ [] := by
  rw [works_iff]
  simp only [State.enabled, Bool.and_eq_true, State.mayStartWrite]
  refine and_congr_right fun _ => ?_
  cases s.cring q <;> simp

theorem State.beginWrite_eq {s : State} {q : CRingId} {c : CRing} {w : Writer} {rest : List Writer} {rec : CompRecord}
    (hc : s.cring q = some c) (hw : c.waiting = w :: rest) (hrec : s.recordOf w = some rec) :
    s.beginWrite q = s.setCRing q (some { c with waiting := rest, write := some ⟨w, c.tail, rec, rec.bytes c.pass⟩ }) := by
  rw [State.beginWrite, hc]
  dsimp only
  rw [hw]
  dsimp only
  rw [hrec]

theorem State.enabled_adminWrite_iff {s : State} :
    s.enabled .adminWrite = true ↔ Works s ∧ s.admin.phase = .completing ∧ s.admin.requested = false := by
  rw [works_iff]
  simp only [State.enabled, Bool.and_eq_true, beq_iff_eq, Bool.not_eq_true', and_assoc]

/-- Settles O6. -/
theorem noticesAndWritesBeginInOrder : Obligations.NoticesAndWritesBeginInOrder := by
  refine ⟨fun s l => ⟨fun h => ?_, fun hw hn ⟨i, y, hy⟩ hring => ?_⟩, fun s l => ⟨State.enabled_notice_iff, fun g hg q hq => ⟨fun hp => ?_, fun hp e rest hr st hst => ?_⟩⟩,
    fun s q => ⟨State.enabled_startWrite_iff, fun c hc w rest hw rec hrec => State.beginWrite_eq hc hw hrec⟩,
    fun s => ⟨State.enabled_adminWrite_iff, rfl⟩⟩
  · obtain ⟨hw, i, hi, y, hy, q, hq⟩ := State.enabled_txn_iff.mp h
    obtain ⟨hnone, z, hz, hleast⟩ := Line.nextTxn_oldest.2 i hi
    obtain rfl : y = z := Option.some.inj ((Option.mem_def.mp hy).symm.trans hz.1)
    exact ⟨hw, hnone, i, y, hz, hleast, q, hq, State.requestTxn_eq hi hy hq⟩
  · rw [State.enabled_txn_iff]
    refine ⟨hw, ?_⟩
    cases hi : (s.line l).nextTxn with
    | none => exact absurd hy (Line.nextTxn_oldest.1 hn hi i y)
    | some j =>
      obtain ⟨-, z, hz, -⟩ := Line.nextTxn_oldest.2 j hi
      exact ⟨j, rfl, z, hz.1, Option.ne_none_iff_exists'.mp (hring j z hz)⟩
  · have ht := s.takeNotice_line hp
    exact ⟨_, rfl, by rw [ht]; rfl, State.writeNotice_eq (Line.noticeRing_eq hg hq) ht⟩
  · have ht := s.takeNotice_station hp hr hst
    exact ⟨_, rfl, by rw [ht]; rfl, State.writeNotice_eq (u := s.setStation e _) (Line.noticeRing_eq hg hq) ht⟩

/-! ## What follows without a claim -/

theorem Line.fenceOpen_iff {x : Line} {i : SlotId} : x.fenceOpen i = true ↔
    ∃ y ∈ x.slot i, y.state = .waiting ∧ ∀ j, j ≠ i → ∀ z ∈ x.slot j, z.ring ≠ y.ring := by
  unfold Line.fenceOpen
  cases x.slot i with
  | none => simp
  | some y =>
    simp only [Bool.and_eq_true, beq_iff_eq, List.all_eq_true, List.mem_finRange, forall_const, Bool.or_eq_true, Option.mem_def,
      Option.some.injEq, exists_eq_left']
    refine and_congr_right fun _ => forall_congr' fun j => ?_
    cases x.slot j <;> simp [or_iff_not_imp_left]

theorem State.enabled_drain_iff {s : State} {r : RingId} : s.enabled (.drain r) = true ↔
    Works s ∧ (∃ x ∈ s.ring r, x.state = .draining ∧ x.inFlight = 0) ∧ ∀ l, ∀ rd ∈ (s.line l).read, rd.ring ≠ r := by
  rw [works_iff]
  simp only [State.enabled, Bool.and_eq_true, State.drained]
  refine and_congr_right fun _ => ?_
  have hread : s.readInProgress r = false ↔ ∀ l, ∀ rd ∈ (s.line l).read, rd.ring ≠ r := by
    rw [← Bool.not_eq_true, State.readInProgress_iff]
    simp
  cases s.ring r <;> simp [hread]

theorem Line.allFree_iff {x : Line} : x.allFree = true ↔ ∀ i, x.slot i = none := by simp [Line.allFree]

theorem State.enabled_lineStopped_iff {s : State} {l : LineId} : s.enabled (.lineStopped l) = true ↔ Works s ∧ (s.line l).run = .stopping
    ∧ (s.line l).abortStop = false ∧ (∀ i, (s.line l).slot i = none) ∧ (s.line l).read = none ∧ (s.line l).phase = some .idle := by
  rw [works_iff]
  simp only [State.enabled, Bool.and_eq_true, Line.stopReached, Line.gracefulStop_iff, Line.allFree_iff, Option.isNone_iff_eq_none,
    beq_iff_eq, and_assoc]

theorem outcome_eq_iff {a st : Status} {b v : Nat} : some (a, b) = some (st, v) ↔ st = a ∧ v = b := by
  rw [Option.some.injEq, Prod.mk.injEq, eq_comm, @eq_comm _ b]

theorem lineFault_outcome_iff (f : Option LineFault) {st : Status} {v : Nat} :
    some (Status.lineFault, (lineFaultCode f).toNat) = some (st, v) ↔ st = .lineFault ∧ v = (match f with
      | none => 0 | some .notQuiet => 1 | some .stuck => 2 | some .conflict => 3) := by
  rw [outcome_eq_iff]
  cases f with
  | none => rfl
  | some f => cases f <;> rfl

/-- The outcome of a waiting command is the one its condition names (R155). -/
theorem met_iff {s : State} {c : AdminCommand} {st : Status} {v : Nat} : Met s c st v ↔ s.waitMet c = some (st, v) := by
  unfold Met State.waitMet
  cases c.wait with
  | none => exact ⟨nofun, nofun⟩
  | some w =>
    cases w with
    | lineStart l =>
      dsimp only
      cases (s.line l).run with
      | running => simp only [outcome_eq_iff, true_and, false_and, or_false, reduceCtorEq]
      | faulted => exact ⟨fun h => (lineFault_outcome_iff _).mpr (h.elim (fun h => nomatch h.1) (·.2)),
          fun h => .inr ⟨rfl, (lineFault_outcome_iff _).mp h⟩⟩
      | stopped => simp
      | starting => simp
      | stopping => simp
    | lineStop l =>
      dsimp only
      cases (s.line l).run with
      | stopped => simp only [outcome_eq_iff, true_and, false_and, or_false, reduceCtorEq]
      | faulted => exact ⟨fun h => (lineFault_outcome_iff _).mpr (h.elim (fun h => nomatch h.1) (·.2)),
          fun h => .inr ⟨rfl, (lineFault_outcome_iff _).mp h⟩⟩
      | running => simp
      | starting => simp
      | stopping => simp
    | lineAbort l =>
      dsimp only
      cases (s.line l).run with
      | stopped => simp only [outcome_eq_iff, true_and, true_or]
      | faulted => simp only [outcome_eq_iff, true_and, or_true]
      | running => simp
      | starting => simp
      | stopping => simp
    | ringDelete r =>
      dsimp only
      cases s.ring r with
      | none => simp only [Option.isNone_none, if_true, outcome_eq_iff, true_and]
      | some x => simp
    | detach e =>
      dsimp only
      cases s.station e with
      | none => simp only [Option.isNone_none, if_true, outcome_eq_iff, true_and]
      | some x => simp

theorem State.adminMet_eq {s : State} {c : AdminCommand} (hp : s.admin.phase = .waiting) (hc : s.admin.command = some c) :
    s.adminMet = s.waitMet c := by rw [State.adminMet, hp, hc]

theorem State.enabled_adminEnd_iff {s : State} : s.enabled .adminEnd = true ↔
    Works s ∧ s.admin.phase = .waiting ∧ ∃ c ∈ s.admin.command, ∃ st v, Met s c st v := by
  rw [works_iff]
  simp only [State.enabled, Bool.and_eq_true, Option.isSome_iff_exists, met_iff]
  refine and_congr_right fun _ => ⟨?_, ?_⟩
  · rintro ⟨v, hv⟩
    obtain ⟨hp, c, hc, hm⟩ := State.adminMet_some hv
    exact ⟨hp, c, hc, v.1, v.2, hm⟩
  · rintro ⟨hp, c, hc, st, v, hm⟩
    exact ⟨(st, v), (State.adminMet_eq hp hc).trans hm⟩

/-- An abort stop that waits moves a FAULTED line to STOPPED; any other waiting command moves none (R166). -/
theorem State.stopFaultedForAbort_cases {s : State} {c : AdminCommand} (hc : s.admin.command = some c) :
    (∀ l, c.wait = some (.lineAbort l) → (s.line l).run = .faulted →
      s.stopFaultedForAbort = s.setLine l (stoppedLine (s.line l)))
    ∧ ((∀ l, c.wait = some (.lineAbort l) → (s.line l).run ≠ .faulted) → s.stopFaultedForAbort = s) := by
  unfold State.stopFaultedForAbort
  rw [hc]
  dsimp only
  refine ⟨fun l hw hl => ?_, fun h => ?_⟩
  · rw [hw]
    exact if_pos hl
  · split
    · next l hw => exact if_neg (h l hw)
    · rfl

theorem State.stopFaultedForAbort_admin (s : State) : s.stopFaultedForAbort.admin = s.admin := by
  rcases s.stopFaultedForAbort_eq with e | ⟨l, -, e⟩ <;> rw [e]
  rfl

theorem State.endAdminWait_of_met {s : State} {c : AdminCommand} {st : Status} {v : Nat} (hp : s.admin.phase = .waiting)
    (hc : s.admin.command = some c) (hm : Met s c st v) : s.endAdminWait = { s.stopFaultedForAbort with
      admin := ⟨.completing, some { c with wait := none, result := some (st, v) }, false, none⟩ } := by
  rw [State.endAdminWait, State.adminMet_eq hp hc, met_iff.mp hm]
  dsimp only
  rw [State.adminDecide, State.stopFaultedForAbort_admin, hc]
  rfl

theorem Line.atRest_iff {x : Line} : x.atRest = true ↔ x.run = .stopped ∧ (∀ i, x.slot i = none) ∧ x.read = none ∧ x.txnWriter = none
    ∧ x.scanner.state = .idle ∧ x.notice = none := by
  simp only [Line.atRest, Bool.and_eq_true, beq_iff_eq, Line.allFree_iff, Option.isNone_iff_eq_none, and_assoc]

theorem State.allAtRest_iff {s : State} : s.allAtRest = true ↔ s.admin.phase = .idle ∧ (∀ l, (s.line l).atRest = true)
    ∧ ∀ r, ∀ c ∈ s.cring r, c.write = none ∧ c.waiting = [] := by
  simp only [State.allAtRest, Bool.and_eq_true, beq_iff_eq, List.all_eq_true, List.mem_finRange, forall_const, and_assoc]
  refine and_congr_right fun _ => and_congr_right fun _ => forall_congr' fun r => ?_
  cases s.cring r <;> simp [CRing.atRest]

/-- Settles O27. -/
theorem consequencesTakeEffect : Obligations.ConsequencesTakeEffect := by
  refine ⟨fun s l i => ⟨?_, fun x hx _ hout => ?_⟩, fun s r => ⟨State.enabled_drain_iff, rfl⟩,
    fun s l => ⟨State.enabled_lineStopped_iff, rfl⟩, fun s => ⟨State.enabled_adminEnd_iff, fun c hc hp st v hm => ?_⟩,
    fun s => ⟨?_, .endDisable s⟩⟩
  · rw [works_iff]
    simp only [State.enabled, Bool.and_eq_true, Line.fenceOpen_iff]
    rfl
  · exact ⟨_, State.enterReady_eq hx, Slot.enterReady_eq _ _ _, enteredReady_enterReady s l hout⟩
  · obtain ⟨hstop, hstay⟩ := State.stopFaultedForAbort_cases hc
    exact ⟨s.stopFaultedForAbort, State.endAdminWait_of_met hp hc hm, hstop, hstay⟩
  · simp only [State.enabled, Bool.and_eq_true, beq_iff_eq, State.allAtRest_iff, Line.atRest_iff]

end Sys2Proof.Machine

/-! # Timers that end in no failure, and the characters sent (chapters 1, 4, 6 and 8) -/

namespace Sys2Proof.Machine

open Sys2Proof.Claims

/-! ## Line times (R1) -/

theorem charTimes_eq (c : LineConfig) (n : Nat) : charTimes c n = c.charsUs n := by
  unfold charTimes LineConfig.charsUs LineConfig.bitsUs LineConfig.charBits LineConfig.bitRate ratesOf
  cases c.mode <;> rfl

theorem Line.expiry_eq {x : Line} {g : LineConfig} {timer : Timers → Option Nat} {t : Nat} (hg : x.config = some g)
    (ht : timer x.timers = some t) (chars : LineConfig → Nat) : x.expiry timer chars = some (t + charTimes g (chars g)) := by
  rw [Line.expiry, hg, ht, charTimes_eq]

theorem Line.isAsync_of_config {x : Line} {g : LineConfig} (h : x.config = some g) : x.isAsync = decide (g.mode = .async) := by
  rw [Line.isAsync, h]
  exact Bool.beq_eq_decide_eq _ _

theorem Line.isAsync_of_mode {x : Line} {g : LineConfig} (h : x.config = some g) (hm : g.mode = .async) : x.isAsync = true := by
  rw [Line.isAsync_of_config h, decide_eq_true hm]

theorem Line.isClocked_of_mode {x : Line} {g : LineConfig} (h : x.config = some g) (hm : g.mode = .clocked) : x.isClocked = true := by
  rw [Line.isClocked_of_config h, decide_eq_true hm]

/-! ## The quiet timers (R65, R66, R67, R83) -/

/-- Settles O36. -/
theorem quietTimersEndInRunningAndIdle : Obligations.QuietTimersEndInRunningAndIdle := by
  refine ⟨fun s l g hg hw hr => ⟨fun hm t ht => leads_of_eq rfl ?_, fun hm t ht => leads_of_eq rfl ?_⟩,
    fun s l g hg t ht hw hp => leads_of_eq rfl ?_⟩
  · rw [State.startQuietExpires, Line.expiry_eq hg ht]
    exact if_pos ⟨(works_iff s).mp hw, hr, Line.isAsync_of_mode hg hm⟩
  · rw [State.clockedWaitEnds, Line.expiry_eq hg ht]
    exact if_pos ⟨(works_iff s).mp hw, hr, Line.isClocked_of_mode hg hm⟩
  · rw [State.settleExpires, Line.expiry_eq hg ht]
    exact if_pos ⟨(works_iff s).mp hw, hp⟩

/-! ## Stations and coalescing (R28, R108, R145) -/

/-- The slots after the end of a hold-off of the station `x`: its DEFERRED ones return to READY unless redelivery is pending (R28, R49). -/
def Station.released (x : Station) (a : Slot) : Slot :=
  if x.redelivery = false ∧ a.addr = x.addr ∧ a.state = .deferred then { a with state := .ready } else a

theorem State.keyed_setStation {s : State} (hk : s.KeysOk) {e : EntryId} {x y : Station} (hx : s.station e = some x)
    (hy : y.line = x.line ∧ y.addr = x.addr) : (s.setStation e (some y)).keyed x.line x.addr = some y := by
  have hlookup : (s.setStation e (some y)).lookup x.line x.addr = s.lookup x.line x.addr := by
    unfold State.lookup
    congr 1
    funext f
    unfold State.entryHasKey
    by_cases he : f = e
    · subst he
      rw [State.station_setStation_same, hx]
      simp only [hy.1, hy.2]
    · rw [State.station_setStation_ne _ _ he]
  rw [State.keyed, hlookup, State.lookup_of_station hk hx, Option.bind_some, State.station_setStation_same]

theorem Station.released_of_redelivery {x : Station} (h : x.redelivery = true) (o : Option Slot) : o.map x.released = o := by
  have : x.released = id := funext fun a => by simp [Station.released, h]
  rw [this, Option.map_id]
  rfl

/-- The end of a hold-off: the entry, and the slots of its line (R28). -/
theorem State.endHoldOff_frame {s : State} (hk : s.KeysOk) {e : EntryId} {x : Station} (hx : s.station e = some x) :
    s.endHoldOff e = { s.setStation e (some { x with holdUntil := none }) with lines := (s.endHoldOff e).lines }
    ∧ (∀ k, k ≠ x.line → (s.endHoldOff e).line k = s.line k)
    ∧ (s.endHoldOff e).line x.line = { s.line x.line with slots := ((s.endHoldOff e).line x.line).slots }
    ∧ ∀ i, (s.endHoldOff e).slot x.line i = (s.slot x.line i).map x.released := by
  have hkeyed : (s.setStation e (some { x with holdUntil := none })).keyed x.line x.addr = some { x with holdUntil := none } :=
    State.keyed_setStation hk hx ⟨rfl, rfl⟩
  have hblocked : (s.setStation e (some { x with holdUntil := none })).addrBlocked x.line x.addr = x.redelivery := by
    rw [State.addrBlocked, hkeyed]
    simp [Station.blocked]
  have heff : s.endHoldOff e = (s.setStation e (some { x with holdUntil := none })).releaseDeferred x.line x.addr := by
    rw [State.endHoldOff, hx]
  rw [State.releaseDeferred, hblocked] at heff
  rw [heff]
  cases hr : x.redelivery with
  | true => exact ⟨rfl, fun _ _ => rfl, rfl, fun i => (Station.released_of_redelivery hr _).symm⟩
  | false =>
    rw [if_neg (by simp)]
    refine ⟨rfl, fun k hk => State.line_modLine_ne _ _ hk, by rw [State.line_modLine_same]; rfl, fun i => ?_⟩
    rw [State.slot, State.line_modLine_same, Line.slot_mapSlots]
    refine congrArg (fun f => Option.map f _) (funext fun a => ?_)
    simp [Station.released, hr, and_comm]

theorem State.signalRing_eq {s : State} {r : CRingId} {c : CRing} (hc : s.cring r = some c) : s.signalRing r =
    { s.setCRing r (some { c with unsignalled := 0, timer := none }) with intcause := s.intcause ||| BitVec.twoPow 6 r.val } := by
  rw [State.signalRing, State.modCRing, show (s.setCause r.val).cring r = some c from hc]
  rfl

/-- Settles O50. -/
theorem stationTimesAreReached : Obligations.StationTimesAreReached := by
  refine ⟨fun s e x hx ms hms hw hk => ?_, fun s e x hx hw => leads_of_eq rfl ?_, fun s r c hc t ht hw => leads_of_eq rfl ?_⟩
  · have heff : s.holdOffExpires e = (reached s (ms * 1000)).endHoldOff e := by
      rw [State.holdOffExpires, hx]
      dsimp only
      rw [hms]
      exact if_pos ((works_iff s).mp hw)
    obtain ⟨t, ht, hu⟩ := leads_of_eq (i := .holdOffEnd e) (s := s) rfl heff
    exact ⟨_, t, ht, hu, State.endHoldOff_frame (s := reached s (ms * 1000)) hk hx⟩
  · rw [State.dueReached, hx]
    exact if_pos ((works_iff s).mp hw)
  · rw [State.coalescingExpires, hc]
    dsimp only
    rw [ht]
    exact (if_pos ((works_iff s).mp hw)).trans (State.signalRing_eq (s := reached s (t + c.time)) hc)

/-! ## Sending (R2, R5, R75, R76, R78) -/

/-- The parity over a list of bits, by their count of ones. -/
theorem foldl_xor_eq (bs : List Bool) (b : Bool) : bs.foldl xor b = decide ((bs.count true + b.toNat) % 2 = 1) := by
  induction bs generalizing b with
  | nil => cases b <;> rfl
  | cons c bs ih =>
    rw [List.foldl_cons, ih]
    cases b <;> cases c <;> simp
    omega

theorem count_singleton (b : Bool) : [b].count true = b.toNat := by cases b <;> rfl

theorem count_parityBit (odd : Bool) (v : Byte) (mark : Bool) :
    (dataBits v ++ [mark] ++ [parityBit odd v mark]).count true % 2 = odd.toNat := by
  have hbit : parityBit odd v mark = (decide (((dataBits v).count true + mark.toNat) % 2 = 1) ^^ odd) := by
    rw [parityBit, foldl_xor_eq]
  rw [hbit, List.count_append, List.count_append, count_singleton, count_singleton]
  rcases Nat.mod_two_eq_zero_or_one ((dataBits v).count true + mark.toNat) with h | h
  · cases odd
    · simp only [h, Bool.toNat_false]; simp; omega
    · simp only [h, Bool.toNat_true]; simp; omega
  · cases odd
    · simp only [h, Bool.toNat_false]; simp; omega
    · simp only [h, Bool.toNat_true]; simp; omega

theorem dataBits_eq (v : Byte) : dataBits v =
    [v.getLsbD 0, v.getLsbD 1, v.getLsbD 2, v.getLsbD 3, v.getLsbD 4, v.getLsbD 5, v.getLsbD 6, v.getLsbD 7] := rfl

theorem txBits_async {c : LineConfig} (h : c.mode = .async) (v : Byte) (mark : Bool) : ∃ par : List Bool,
    txBits c v mark = false :: dataBits v ++ [mark] ++ par ++ List.replicate c.stopBits true
    ∧ (c.parity = .none → par = [])
    ∧ (c.parity = .even → par.length = 1 ∧ (dataBits v ++ [mark] ++ par).count true % 2 = 0)
    ∧ (c.parity = .odd → par.length = 1 ∧ (dataBits v ++ [mark] ++ par).count true % 2 = 1) := by
  cases hp : c.parity with
  | none => exact ⟨[], by simp [txBits, h, hp], fun _ => rfl, nofun, nofun⟩
  | even => exact ⟨[parityBit false v mark], by simp [txBits, h, hp], nofun, fun _ => ⟨rfl, count_parityBit false v mark⟩, nofun⟩
  | odd => exact ⟨[parityBit true v mark], by simp [txBits, h, hp], nofun, nofun, fun _ => ⟨rfl, count_parityBit true v mark⟩⟩

theorem Line.beginSending_eq {x : Line} {g : LineConfig} {a : Attempt} (hg : x.config = some g) (ha : x.attempt = some a)
    (hpos : x.sentPos = 0) : x.beginSending = { x with
      phase := some .sending, timers := { x.timers with lead := none }
      pins := { x.pins with clocking := decide (g.mode = .clocked), shifting := txBits g (byteAt a.frame 0) true } } := by
  simp [Line.beginSending, Line.beginCharacter, hg, ha, hpos, Line.isClocked_of_config hg, frameMark]

theorem State.leadEnds_eq {s : State} {l : LineId} {g : LineConfig} {t : Nat} (hg : (s.line l).config = some g)
    (ht : (s.line l).timers.lead = some t) (hw : Works s) (hp : (s.line l).phase = some .lead) :
    s.leadEnds l = (s.reachUs (t + g.bitsUs g.lead)).modLine l Line.beginSending := by
  rw [State.leadEnds, hp, hg, ht]
  exact if_pos ((works_iff s).mp hw)

/-- The line after a character has been sent, before what follows it (R76). -/
def Line.characterOver (x : Line) : Line := { x with sentPos := x.sentPos + 1, pins := { x.pins with shifting := [] } }

theorem Line.isAsync_characterOver (x : Line) : x.characterOver.isAsync = x.isAsync := rfl

/-- In SENDING the end of a character without conflict goes on to the next, or ends sending (R76, R78). -/
theorem State.characterEnds_eq {s : State} {l : LineId} {g : LineConfig} {a : Attempt} (hg : (s.line l).config = some g)
    (hw : Works s) (hp : (s.line l).phase = some .sending) (ha : (s.line l).attempt = some a) (hstop : (s.line l).abortStop = false)
    (hconflict : (s.line l).conflict = false) (hecho : g.mode = .async → (s.line l).sentPos + 1 ≤ (s.line l).echoes) :
    s.characterEnds l = if (s.line l).sentPos + 1 < a.frame.length
      then (s.setLine l (s.line l).characterOver).modLine l Line.beginCharacter
      else (s.setLine l (s.line l).characterOver).sendingEnds l a := by
  have hnone : ¬ ((s.line l).conflict || ((s.line l).isAsync && decide ((s.line l).echoes < (s.line l).sentPos + 1))) = true := by
    rw [hconflict, Line.isAsync_of_config hg]
    simpa using hecho
  unfold State.characterEnds
  dsimp only
  rw [if_pos ⟨(works_iff s).mp hw, hp⟩, if_neg (by simp [hstop]), ha]
  exact if_neg hnone

theorem Line.beginCharacter_over {x : Line} {g : LineConfig} {a : Attempt} (hg : x.config = some g) (ha : x.attempt = some a) :
    x.characterOver.beginCharacter = { x with
      sentPos := x.sentPos + 1, pins := { x.pins with shifting := txBits g (byteAt a.frame (x.sentPos + 1)) false } } := by
  simp [Line.beginCharacter, Line.characterOver, hg, ha, frameMark]

theorem Line.enterAwaiting_over {x : Line} {g : LineConfig} (hg : x.config = some g) (now : Nat) :
    x.characterOver.enterAwaiting now = { x with
      sentPos := x.sentPos + 1, phase := some .awaiting, fillers := 0, timeoutHeld := false
      timers := { x.timers with response := some now }
      pins := { x.pins with de := false, shifting := if g.mode = .clocked then List.replicate 8 true else [] } } := by
  have h : x.characterOver.isClocked = decide (g.mode = .clocked) := Line.isClocked_of_config (x := x.characterOver) hg
  simp only [Line.enterAwaiting, h, decide_eq_true_eq]
  rfl

/-- Settles O38. -/
theorem sendingGoesOnCharacterByCharacter : Obligations.SendingGoesOnCharacterByCharacter := by
  refine ⟨fun s l g hg t ht a ha hw hp hpos => leads_of_eq rfl ?_, ?_, fun c v mark => ⟨fun h => ?_, fun h => txBits_async h v mark⟩⟩
  · exact (State.leadEnds_eq hg ht hw hp).trans
      (congrArg ((s.reachUs (t + g.bitsUs g.lead)).setLine l) (Line.beginSending_eq hg ha hpos))
  · intro s l g hg hw hp x goes
    refine ⟨fun hstop => leads_of_eq rfl ?_, fun a ha hstop hconflict hecho => ⟨fun hmore => leads_of_eq rfl ?_, fun hlast haddr => leads_of_eq rfl ?_⟩⟩
    · exact (if_pos ⟨(works_iff s).mp hw, hp⟩).trans (if_pos hstop)
    · refine ((State.characterEnds_eq hg hw hp ha hstop hconflict hecho).trans (if_pos hmore)).trans ?_
      rw [State.modLine, State.setLine_setLine, State.line_setLine_same, Line.beginCharacter_over hg ha]
    · refine ((State.characterEnds_eq hg hw hp ha hstop hconflict hecho).trans (if_neg (not_lt.mpr hlast))).trans ?_
      refine (if_neg haddr).trans ?_
      rw [State.modLine, State.setLine_setLine, State.line_setLine_same, Line.enterAwaiting_over hg]
      rfl
  · rw [txBits, h]
    rfl

end Sys2Proof.Machine

/-! # Abandonment and mass completion: what ends the work of a line (chapters 3, 4 and 10)

The one relation a line's end of work leads to, and the commands and timers that bring it about. -/

namespace Sys2Proof.Claims

open Sys2Proof.Machine

/-! ## What reaches one line alone -/

theorem CRingsKept.refl (s : State) : CRingsKept s s := ⟨fun _ => id, fun _ c hc => ⟨c, hc, rfl⟩⟩

theorem CRingsKept.trans {s t u : State} (h : CRingsKept s t) (k : CRingsKept t u) : CRingsKept s u := by
  refine ⟨fun r hr => k.1 r (h.1 r hr), fun r c hc => ?_⟩
  obtain ⟨d, hd, hcd⟩ := h.2 r c hc
  obtain ⟨e, he, hde⟩ := k.2 r d hd
  exact ⟨e, he, by rw [hde, hcd]⟩

theorem CRingsKept.of_eq {s t : State} (h : t.crings = s.crings) : CRingsKept s t :=
  ⟨fun r hr => by rw [State.cring, h]; exact hr, fun r c hc => ⟨c, by rw [State.cring, h]; exact hc, rfl⟩⟩

theorem CRingsKept.modCRing (s : State) (q : CRingId) {f : CRing → CRing}
    (hf : ∀ c, f c = { c with reserved := (f c).reserved, waiting := (f c).waiting }) : CRingsKept s (s.modCRing q f) := by
  refine ⟨fun r hr => ?_, fun r c hc => ?_⟩
  · by_cases e : r = q
    · subst e; rw [State.cring_modCRing_same, hr]; rfl
    · rw [State.cring_modCRing_ne _ _ e]; exact hr
  · by_cases e : r = q
    · subst e; exact ⟨f c, by rw [State.cring_modCRing_same, Option.mem_def.mp hc]; rfl, hf c⟩
    · exact ⟨c, by rw [State.cring_modCRing_ne _ _ e]; exact hc, rfl⟩

theorem OnlyLine.refl (s : State) (l : LineId) : OnlyLine s s l := ⟨rfl, .refl s, fun _ _ => rfl⟩

theorem OnlyLine.trans {s t u : State} {l : LineId} (h : OnlyLine s t l) (k : OnlyLine t u l) : OnlyLine s u l where
  state := by rw [k.state, h.state]
  crings := h.crings.trans k.crings
  others m hm := by rw [k.others m hm, h.others m hm]

theorem OnlyLine.setLine (s : State) (l : LineId) (x : Line) : OnlyLine s (s.setLine l x) l :=
  ⟨rfl, .of_eq rfl, fun k hk => by rw [State.line_setLine_ne _ _ hk]⟩

theorem OnlyLine.modLine (s : State) (l : LineId) (f : Line → Line) : OnlyLine s (s.modLine l f) l := .setLine s l _

theorem OnlyLine.setStation (s : State) (l : LineId) (e : EntryId) (x : Option Station) : OnlyLine s (s.setStation e x) l :=
  ⟨rfl, .of_eq rfl, fun _ _ => rfl⟩

theorem OnlyLine.reachUs (s : State) (l : LineId) (t : Nat) : OnlyLine s (s.reachUs t) l := ⟨rfl, .of_eq rfl, fun _ _ => rfl⟩

theorem OnlyLine.requestWrite (s : State) (l : LineId) (q : CRingId) (w : Writer) : OnlyLine s (s.requestWrite q w) l :=
  ⟨rfl, .modCRing s q fun _ => rfl, fun _ _ => rfl⟩

theorem OnlyLine.returnReservation (s : State) (l : LineId) (q : CRingId) : OnlyLine s (s.returnReservation q) l where
  state := rfl
  crings := .trans (.modCRing s q fun c => rfl) (.of_eq rfl)
  others m _ := by rw [State.returnReservation, State.line_gainPlace, Line.placeGained_refused, State.modCRing_line_frame]

end Sys2Proof.Claims

namespace Sys2Proof.Machine

open Sys2Proof.Claims

/-! ## The parts of the end of a line's work -/

theorem State.requestTxn_cases (s : State) (l : LineId) : s.requestTxn l = s
    ∨ ∃ i q, s.requestTxn l = (s.modLine l fun x => { x with txnWriter := some i }).requestWrite q (.slot l i) := by
  unfold State.requestTxn
  split
  · exact .inl rfl
  · split
    · exact .inl rfl
    · exact .inr ⟨_, _, rfl⟩

theorem State.requestTxn_onlyLine (s : State) (l : LineId) : OnlyLine s (s.requestTxn l) l := by
  rcases s.requestTxn_cases l with e | ⟨i, q, e⟩
  · rw [e]; exact .refl s l
  · rw [e]; exact .trans (.modLine s l _) (.requestWrite _ l q _)

/-- The request of a completion write reaches no more of the line than the slot being written. -/
theorem State.requestTxn_frame (s : State) (l : LineId) : (s.requestTxn l).stations = s.stations
    ∧ (s.requestTxn l).deviceTime = s.deviceTime
    ∧ (s.requestTxn l).line l = { s.line l with txnWriter := ((s.requestTxn l).line l).txnWriter } := by
  rcases s.requestTxn_cases l with e | ⟨i, q, e⟩
  · rw [e]; exact ⟨rfl, rfl, rfl⟩
  · rw [e]
    refine ⟨rfl, rfl, ?_⟩
    rw [State.requestWrite, State.modCRing_line_frame, State.line_modLine_same]

theorem State.pollReturned_onlyLine (s : State) (l : LineId) (q : CRingId) : OnlyLine s (s.pollReturned l q) l :=
  .trans (.modLine s l _) (.returnReservation _ l q)

theorem State.dropPoll_polling {s : State} {l : LineId} {q : CRingId} (hs : (s.line l).scanner.state = .polling)
    (hq : (s.line l).scanner.reservation = some q) : s.dropPoll l = s.pollReturned l q := by
  unfold State.dropPoll
  dsimp only
  rw [hs, hq]
  rfl

/-- The drop of a Scanner's poll: in hand it is given back, otherwise nothing changes. -/
theorem State.dropPoll_cases {s : State} {l : LineId} (h : (s.line l).scanner.Ok) :
    (((s.line l).scanner.state = .holding ∨ (s.line l).scanner.state = .polling) ∧ ∃ q, s.dropPoll l = s.pollReturned l q)
    ∨ ((s.line l).scanner.state = .idle ∨ (s.line l).scanner.state = .delivering) ∧ s.dropPoll l = s := by
  have hsome : (s.line l).scanner.state ≠ .idle → ∃ q, (s.line l).scanner.reservation = some q := fun hn =>
    Option.isSome_iff_exists.mp (h.1.mpr hn)
  cases hs : (s.line l).scanner.state with
  | idle => exact .inr ⟨.inl rfl, by unfold State.dropPoll; simp [hs]⟩
  | delivering => exact .inr ⟨.inr rfl, by unfold State.dropPoll; simp [hs]⟩
  | holding =>
    obtain ⟨q, hq⟩ := hsome (by simp [hs])
    exact .inl ⟨.inl rfl, q, State.dropPoll_holding hs hq⟩
  | polling =>
    obtain ⟨q, hq⟩ := hsome (by simp [hs])
    exact .inl ⟨.inr rfl, q, State.dropPoll_polling hs hq⟩

/-- What the drop of a poll makes of the line: its Scanner in IDLE, unless it delivers. -/
theorem State.dropPoll_frame {s : State} {l : LineId} (h : (s.line l).scanner.Ok) : OnlyLine s (s.dropPoll l) l
    ∧ (s.dropPoll l).stations = s.stations ∧ (s.dropPoll l).deviceTime = s.deviceTime
    ∧ (s.dropPoll l).line l = { s.line l with scanner := ((s.dropPoll l).line l).scanner }
    ∧ ((s.line l).scanner.state = .delivering → ((s.dropPoll l).line l).scanner = (s.line l).scanner)
    ∧ ((s.line l).scanner.state ≠ .delivering →
        ((s.dropPoll l).line l).scanner.state = .idle ∧ ((s.dropPoll l).line l).scanner.reservation = none) := by
  rcases State.dropPoll_cases h with ⟨hs, q, e⟩ | ⟨hs, e⟩
  · rw [e]
    have hl := s.line_pollReturned_same l q
    refine ⟨s.pollReturned_onlyLine l q, rfl, rfl, by rw [hl], fun hd => ?_, fun _ => by rw [hl]; exact ⟨rfl, rfl⟩⟩
    rw [hd] at hs
    exact absurd hs (by simp)
  · rw [e]
    refine ⟨.refl s l, rfl, rfl, rfl, fun _ => rfl, fun hd => ?_⟩
    have hidle := hs.resolve_right hd
    exact ⟨hidle, by simpa [hidle] using h.1⟩

/-! ## The station of an abandoned attempt (R26, R34) -/

/-- What the abandonment of line `l`'s attempt makes of the entries: the one it addresses takes R26 or, under a line fault in DETACHING, is
freed. -/
structure State.Unattempted (free : Bool) (l : LineId) (s t : State) : Prop where
  hit : ∀ e x, s.station e = some x → s.attemptAt l e →
    t.station e = if free = true ∧ x.state = .detaching then none else some { x with syncNeeded := true }
  miss : ∀ e, ¬ s.attemptAt l e → t.station e = s.station e

theorem State.setStation_setStation (s : State) (e : EntryId) (x y : Option Station) :
    (s.setStation e x).setStation e y = s.setStation e y := by
  unfold State.setStation
  rw [vput_vput]

/-- The station part of an abandonment, entry by entry. -/
theorem State.abandonStation_some {s : State} {l : LineId} {a : Nat} {e : EntryId} {x : Station} (he : s.lookup l a = some e)
    (hx : s.station e = some x) (hl : x.line = l) (free : Bool) : s.abandonStation l a free =
      if free = true ∧ x.state = .detaching then
        (s.setStation e none).modLine l fun ln => { ln with noticeQueue := ln.noticeQueue.filter (· ≠ e) }
      else s.setStation e (some x.abandoned) := by
  have hmod : s.modStation e Station.abandoned = s.setStation e (some x.abandoned) := by rw [State.modStation, hx]; rfl
  have hkey : ∀ f, (s.setStation e (some x.abandoned)).keyAt f = s.keyAt f := fun f => by
    unfold State.keyAt
    by_cases hf : f = e
    · subst hf; rw [State.station_setStation_same, hx]; rfl
    · rw [State.station_setStation_ne _ _ hf]
  have hstate : (s.setStation e (some x.abandoned)).keyedState l a = some x.state := by
    rw [State.keyedState, State.keyed_of_lookup ((State.lookup_congr hkey l a).trans he), State.station_setStation_same]
    rfl
  have hcond : (free && ((s.setStation e (some x.abandoned)).keyedState l a == some .detaching)) = true
      ↔ free = true ∧ x.state = .detaching := by
    rw [hstate]
    simp
  have hfree : (s.setStation e (some x.abandoned)).freeEntry e =
      (s.setStation e none).modLine l fun ln => { ln with noticeQueue := ln.noticeQueue.filter (· ≠ e) } := by
    rw [State.freeEntry, State.station_setStation_same]
    dsimp only
    rw [State.setStation_setStation, show x.abandoned.line = l from hl]
  rw [State.abandonStation, he]
  dsimp only
  rw [hmod, hfree]
  split
  · next h => exact (if_pos (hcond.mp h)).symm
  · next h => exact (if_neg (mt hcond.mpr h)).symm

/-- The abandonment of an attempt to address `a` on the line's station. -/
theorem State.abandonStation_frame (s : State) (l : LineId) (a : Nat) (free : Bool) :
    OnlyLine s (s.abandonStation l a free) l ∧ (s.abandonStation l a free).deviceTime = s.deviceTime
    ∧ (∀ e x, s.station e = some x → s.lookup l a = some e → (s.abandonStation l a free).station e =
        if free = true ∧ x.state = .detaching then none else some { x with syncNeeded := true })
    ∧ (∀ e, s.lookup l a ≠ some e → (s.abandonStation l a free).station e = s.station e)
    ∧ (s.abandonStation l a free).line l = { s.line l with noticeQueue := ((s.abandonStation l a free).line l).noticeQueue }
    ∧ (free = false → ((s.abandonStation l a free).line l).noticeQueue = (s.line l).noticeQueue) := by
  cases he : s.lookup l a with
  | none =>
    have e : s.abandonStation l a free = s := by rw [State.abandonStation, he]
    rw [e]
    exact ⟨.refl s l, rfl, nofun, fun _ _ => rfl, rfl, fun _ => rfl⟩
  | some e =>
    obtain ⟨x, hx, hl, -⟩ := State.lookup_some he
    rw [State.abandonStation_some he hx hl free]
    split
    · next hfree =>
      refine ⟨.trans (.setStation s l e none) (.modLine _ l _), rfl, fun f y _ hf => ?_, fun f hf => ?_, ?_,
        fun h => absurd (h.symm.trans hfree.1) (by simp)⟩
      · obtain rfl := Option.some.inj hf
        obtain rfl := Option.some.inj (‹s.station e = some y›.symm.trans hx)
        rw [if_pos hfree, State.modLine_station_frame, State.station_setStation_same]
      · rw [State.modLine_station_frame, State.station_setStation_ne _ _ fun h => hf (congrArg some h.symm)]
      · rw [State.line_modLine_same]; rfl
    · next hfree =>
      refine ⟨.setStation s l e _, rfl, fun f y _ hf => ?_, fun f hf => ?_, rfl, fun _ => rfl⟩
      · obtain rfl := Option.some.inj hf
        obtain rfl := Option.some.inj (‹s.station e = some y›.symm.trans hx)
        rw [if_neg hfree, State.station_setStation_same]
        rfl
      · rw [State.station_setStation_ne _ _ fun h => hf (congrArg some h.symm)]

/-! ## The end of a line's work (R61) -/

/-- What the abandonment of the line's attempt makes of slot `i`. -/
def Line.slotAbandoned (x : Line) (st : Status) (i : SlotId) (y : Slot) : Slot :=
  if x.attempt.map (·.requester) = some (.slot i) then { y with attempts := y.attempts + 1 }.finishPlain st else y

theorem State.slot_modSlot_eq (s : State) (l : LineId) (i j : SlotId) (f : Slot → Slot) :
    (s.modSlot l i f).slot l j = (s.slot l j).map fun y => if j = i then f y else y := by
  by_cases e : j = i
  · subst e
    simp [State.slot, State.modSlot]
  · simp [State.slot, State.modSlot, Line.slot_modSlot_ne _ f e, e]

/-- The state with the attempt of line `l` taken off it. -/
def State.withoutAttempt (s : State) (l : LineId) : State := s.modLine l fun x => { x with attempt := none }

theorem State.line_withoutAttempt (s : State) (l : LineId) : (s.withoutAttempt l).line l = { s.line l with attempt := none } :=
  State.line_modLine_same _ _ _

theorem State.abandonAttempt_scanner {s : State} {l : LineId} {a : Attempt} (ha : (s.line l).attempt = some a)
    (hr : a.requester = .scanner) (st : Status) (free : Bool) :
    s.abandonAttempt l st free = (s.withoutAttempt l).abandonStation l a.addr free := by
  rw [State.abandonAttempt, ha]
  dsimp only
  rw [hr]
  rfl

theorem State.abandonAttempt_slot {s : State} {l : LineId} {a : Attempt} {i : SlotId} (ha : (s.line l).attempt = some a)
    (hr : a.requester = .slot i) (st : Status) (free : Bool) :
    s.abandonAttempt l st free = (((s.withoutAttempt l).abandonStation l a.addr free).modSlot l i fun y =>
      { y with attempts := y.attempts + 1 }.finishPlain st).requestTxn l := by
  rw [State.abandonAttempt, ha]
  dsimp only
  rw [hr]
  rfl

/-- What the abandonment of the line's attempt is, apart from its slots. -/
structure State.AttemptDropped (free : Bool) (l : LineId) (s t : State) : Prop where
  only : OnlyLine s t l
  time : t.deviceTime = s.deviceTime
  entries : s.Unattempted free l t
  line : t.line l = { s.line l with
    attempt := none, slots := (t.line l).slots, txnWriter := (t.line l).txnWriter, noticeQueue := (t.line l).noticeQueue }
  queue : free = false → (t.line l).noticeQueue = (s.line l).noticeQueue

theorem State.AttemptDropped.of_none {s : State} {l : LineId} (h : (s.line l).attempt = none) (free : Bool) :
    State.AttemptDropped free l s s where
  only := .refl s l
  time := rfl
  entries := ⟨fun e x _ ⟨b, hb, _⟩ => absurd hb (by simp [h]), fun _ _ => rfl⟩
  line := by rw [← h]
  queue _ := rfl

/-- The station's part of an abandonment, with the attempt taken off the line. -/
theorem State.AttemptDropped.station {s : State} {l : LineId} {a : Attempt} (ha : (s.line l).attempt = some a) (free : Bool) :
    State.AttemptDropped free l s ((s.withoutAttempt l).abandonStation l a.addr free)
    ∧ (((s.withoutAttempt l).abandonStation l a.addr free).line l).slots = (s.line l).slots := by
  have hat : ∀ e, s.attemptAt l e ↔ s.lookup l a.addr = some e := fun e => by simp [State.attemptAt, ha]
  obtain ⟨honly, htime, hhit, hmiss, hline, hqueue⟩ := (s.withoutAttempt l).abandonStation_frame l a.addr free
  rw [State.line_withoutAttempt] at hline hqueue
  refine ⟨{
    only := .trans (.modLine s l _) honly
    time := htime
    entries := ⟨fun e x hx he => hhit e x hx ((hat e).mp he), fun e he => hmiss e fun h => he ((hat e).mpr h)⟩
    line := ?_
    queue := hqueue }, ?_⟩
  · rw [hline]
  · rw [hline]

/-- The rest of an abandonment: what is done to the line's slots and its completion writer. -/
theorem State.AttemptDropped.slots {free : Bool} {s t u : State} {l : LineId} (h : State.AttemptDropped free l s t)
    (honly : OnlyLine t u l) (htime : u.deviceTime = t.deviceTime) (hstations : u.stations = t.stations)
    (hline : u.line l = { t.line l with slots := (u.line l).slots, txnWriter := (u.line l).txnWriter }) :
    State.AttemptDropped free l s u where
  only := h.only.trans honly
  time := htime.trans h.time
  entries := by
    have hs : ∀ e, u.station e = t.station e := fun e => by rw [State.station, hstations]; rfl
    exact ⟨fun e x hx he => (hs e).trans (h.entries.hit e x hx he), fun e he => (hs e).trans (h.entries.miss e he)⟩
  line := by rw [hline, h.line]
  queue hf := by rw [hline, ← h.queue hf]

/-- The abandonment of the line's attempt: its station, its slot, and the line without it. -/
theorem State.abandonAttempt_frame (s : State) (l : LineId) (st : Status) (free : Bool) :
    State.AttemptDropped free l s (s.abandonAttempt l st free)
    ∧ ∀ i, (s.abandonAttempt l st free).slot l i = (s.slot l i).map ((s.line l).slotAbandoned st i) := by
  have hid : (∀ i, (s.line l).attempt.map (·.requester) ≠ some (.slot i)) →
      ∀ i, (s.slot l i).map ((s.line l).slotAbandoned st i) = s.slot l i := fun h i => by
    have : (s.line l).slotAbandoned st i = id := funext fun y => if_neg (h i)
    rw [this, Option.map_id]; rfl
  cases ha : (s.line l).attempt with
  | none =>
    have e : s.abandonAttempt l st free = s := by rw [State.abandonAttempt, ha]
    rw [e]
    exact ⟨.of_none ha free, fun i => (hid (by simp [ha]) i).symm⟩
  | some a =>
    obtain ⟨hdropped, hslots⟩ := State.AttemptDropped.station ha free
    cases hr : a.requester with
    | scanner =>
      rw [State.abandonAttempt_scanner ha hr]
      refine ⟨hdropped, fun i => ?_⟩
      rw [hid (by simp [ha, hr]), State.slot, Line.slot, hslots]
      rfl
    | slot i =>
      rw [State.abandonAttempt_slot ha hr]
      generalize (s.withoutAttempt l).abandonStation l a.addr free = t at *
      have hmod : State.AttemptDropped free l s (t.modSlot l i fun y => { y with attempts := y.attempts + 1 }.finishPlain st) :=
        hdropped.slots (.modLine t l _) rfl rfl (by rw [State.modSlot, State.line_modLine_same]; rfl)
      have hslot := fun j => t.slot_modSlot_eq l i j fun y => { y with attempts := y.attempts + 1 }.finishPlain st
      generalize t.modSlot l i (fun y => { y with attempts := y.attempts + 1 }.finishPlain st) = v at *
      obtain ⟨hstations, htime, htxn⟩ := v.requestTxn_frame l
      refine ⟨hmod.slots (v.requestTxn_onlyLine l) htime hstations (by rw [htxn]), fun j => ?_⟩
      have hv : (v.requestTxn l).slot l j = v.slot l j := by rw [State.slot, htxn]; rfl
      have ht : t.slot l j = s.slot l j := by rw [State.slot, Line.slot, hslots]; rfl
      rw [hv, hslot, ht]
      refine congrArg (fun f => Option.map f _) (funext fun y => ?_)
      simp [Line.slotAbandoned, ha, hr, eq_comm]

/-- An event that ends the line's work, and what it leaves of it (R61). -/
structure State.WorkStopped (st : Status) (free : Bool) (l : LineId) (s t : State) : Prop where
  only : OnlyLine s t l
  time : t.deviceTime = s.deviceTime
  entries : s.Unattempted free l t
  work : WorkEnded st (s.line l) (t.line l)
  line : t.line l = { s.line l with
    attempt := none, scanner := (t.line l).scanner, slots := (t.line l).slots, read := (t.line l).read
    txnWriter := (t.line l).txnWriter, noticeQueue := (t.line l).noticeQueue }
  queue : free = false → (t.line l).noticeQueue = (s.line l).noticeQueue

/-- The ACTIVE slot of the line is the requester of its attempt. -/
def Line.ActiveIsRequester (x : Line) : Prop := ∀ i, ∀ y ∈ x.slot i, y.state = .active ↔ x.attempt.map (·.requester) = some (.slot i)

theorem Line.activeIsRequester {s : State} (hl : s.LinesOk) (ha : s.AttemptsOk) (l : LineId) : (s.line l).ActiveIsRequester := by
  intro i y hy
  obtain ⟨-, -, -, -, -, -, hactive, -⟩ := hl l
  refine ⟨hactive i y hy, fun h => ?_⟩
  obtain ⟨a, haa, hr⟩ := Option.map_eq_some_iff.mp h
  obtain ⟨z, hz, hzs⟩ := ha l a haa i hr
  obtain rfl : y = z := Option.some.inj ((Option.mem_def.mp hy).symm.trans hz)
  exact hzs

theorem slotEnded_cutOff {x : Line} (h : x.ActiveIsRequester) (st : Status) {i : SlotId} {y : Slot} (hy : y ∈ x.slot i) :
    SlotEnded st y ((x.slotAbandoned st i y).cutOff st) := by
  unfold SlotEnded Line.slotAbandoned
  split
  · next ha => rw [if_pos ((h i y hy).mp ha)]; rfl
  · next ha => rw [if_neg (mt (h i y hy).mpr ha)]; exact slotCut_cutOff st y

/-- The end of a line's work, whatever brings it about. -/
theorem State.endWork_stopped {s : State} {l : LineId} (hactive : (s.line l).ActiveIsRequester) (hscan : (s.line l).scanner.Ok)
    (st : Status) (free : Bool) : State.WorkStopped st free l s (s.endWork l st free) := by
  obtain ⟨habandon, hslot⟩ := s.abandonAttempt_frame l st free
  have heq : s.endWork l st free = ((s.abandonAttempt l st free).dropPoll l).modLine l fun x =>
      { x.mapSlots (·.cutOff st) with read := x.read.map fun r => { r with events := r.events ++ [.decided st] } } := rfl
  rw [heq]
  generalize s.abandonAttempt l st free = t at *
  have hscanner : (t.line l).scanner = (s.line l).scanner := by rw [habandon.line]
  obtain ⟨honly, hstations, htime, hline, hdeliver, hpoll⟩ := State.dropPoll_frame (s := t) (l := l) (by rw [hscanner]; exact hscan)
  have hdropped : (t.dropPoll l).line l = { s.line l with
      attempt := none, scanner := ((t.dropPoll l).line l).scanner, slots := (t.line l).slots
      txnWriter := (t.line l).txnWriter, noticeQueue := (t.line l).noticeQueue } := by rw [hline, habandon.line]
  have hstation : ∀ e, (t.dropPoll l).station e = t.station e := fun e => by rw [State.station, hstations]; rfl
  generalize t.dropPoll l = u at *
  have hend := State.line_modLine_same u l fun x : Line =>
      { x.mapSlots (·.cutOff st) with read := x.read.map fun r => { r with events := r.events ++ [.decided st] } }
  have hslots : ∀ i, ((u.modLine l fun x : Line =>
      { x.mapSlots (·.cutOff st) with read := x.read.map fun r => { r with events := r.events ++ [.decided st] } }).line l).slot i =
        (s.slot l i).map fun y => ((s.line l).slotAbandoned st i y).cutOff st := fun i => by
    have ht : (u.line l).slot i = (s.slot l i).map ((s.line l).slotAbandoned st i) := by rw [← hslot, hdropped]; rfl
    rw [hend]
    change ((u.line l).mapSlots (·.cutOff st)).slot i = _
    rw [Line.slot_mapSlots, ht, Option.map_map]
    rfl
  have hread : (u.line l).read = (s.line l).read := by rw [hdropped]
  have hdelivers : (s.line l).scanner.state = .delivering → (u.line l).scanner = (s.line l).scanner := fun hd =>
    (hdeliver (hscanner ▸ hd)).trans hscanner
  exact {
    only := (habandon.only.trans honly).trans (.modLine u l _)
    time := htime.trans habandon.time
    entries := ⟨fun e x hx he => (hstation e).trans (habandon.entries.hit e x hx he),
      fun e he => (hstation e).trans (habandon.entries.miss e he)⟩
    line := by rw [hend, hdropped]; rfl
    queue := fun hf => by rw [hend, hdropped]; exact habandon.queue hf
    work := {
      attempt := by rw [hend, hdropped]; rfl
      delivery := fun hd => by rw [hend, ← hdelivers hd]; exact ⟨(congrArg Scanner.state (hdelivers hd)).trans hd, rfl⟩
      poll := fun hd => by rw [hend]; exact hpoll (hscanner ▸ hd)
      kept := by rw [hend, hdropped]; exact ⟨rfl, rfl, rfl, rfl, rfl⟩
      freeSlots := fun i hi => by rw [hslots]; exact congrArg (Option.map _) hi
      slots := fun i y hy => ⟨_, by rw [hslots]; exact congrArg (Option.map _) hy, slotEnded_cutOff hactive st hy⟩
      read := by rw [hend, ← hread] } }

/-- Ended work stays ended where the line's controller moves on and its Scanner may claim again. -/
theorem WorkEnded.line {st : Status} {x y z : Line} (h : WorkEnded st x y) (hattempt : z.attempt = none)
    (hscan : z.scanner = { y.scanner with refused := z.scanner.refused }) (hslots : z.slots = y.slots) (hread : z.read = y.read)
    (hkept : z.config = y.config ∧ z.counters = y.counters ∧ z.nextAge = y.nextAge ∧ z.conflictCount = y.conflictCount
      ∧ z.notice = y.notice) : WorkEnded st x z := by
  have hslot : ∀ i, z.slot i = y.slot i := fun i => by rw [Line.slot, hslots]; rfl
  obtain ⟨hc, hn, ha, hcc, hno⟩ := hkept
  obtain ⟨kc, kn, ka, kcc, kno⟩ := h.kept
  exact {
    attempt := hattempt
    delivery := fun hd => by rw [hscan]; exact h.delivery hd
    poll := fun hd => by rw [hscan]; exact h.poll hd
    kept := ⟨hc.trans kc, hn.trans kn, ha.trans ka, hcc.trans kcc, hno.trans kno⟩
    freeSlots := fun i hi => (hslot i).trans (h.freeSlots i hi)
    slots := fun i a ha => by rw [hslot]; exact h.slots i a ha
    read := hread.trans h.read }

/-! ## A line's fault (R71) -/

theorem LineFaulted.enterFaulted {x y : Line} (h : WorkEnded .lineFault x y) (hrxd : y.pins.rxd = x.pins.rxd) (cause : LineFault) :
    LineFaulted cause x (y.enterFaulted cause) where
  work := WorkEnded.line h rfl rfl rfl rfl ⟨rfl, rfl, rfl, rfl, rfl⟩
  run := ⟨rfl, rfl, rfl, rfl⟩
  outputs := ⟨by rw [← hrxd]; rfl, rfl⟩
  timers := rfl
  notice := rfl

theorem State.attemptAt_iff {s : State} (hk : s.KeysOk) {l : LineId} {e : EntryId} {x : Station} (hx : s.station e = some x) :
    s.attemptAt l e ↔ x.line = l ∧ ∃ a ∈ (s.line l).attempt, a.addr = x.addr := by
  unfold State.attemptAt
  simp only [State.lookup_eq_some hk, hx, Option.mem_def, Option.some.injEq, exists_eq_left']
  exact ⟨fun ⟨a, ha, hl, hxa⟩ => ⟨hl, a, ha, hxa.symm⟩, fun ⟨hl, a, ha, hxa⟩ => ⟨a, ha, hl, hxa.symm⟩⟩

/-- What a line fault timer does: the line faults at the moment it runs out, and stops at once under DISABLING where it was stuck. -/
theorem faultTimer_effect {s : State} {l : LineId} {g : LineConfig} {i : Instr} {cause : LineFault} {due : Nat} (hw : Works s)
    (h : FaultTimer s l g i cause due) : ∃ v, exec i s = .next v.react
      ∧ (cause ≠ .stuck → v = (reached s due).faultLine l cause)
      ∧ (cause = .stuck → v = ((reached s due).faultLine l cause).stopIfDisabling l) := by
  have hwork := (works_iff s).mp hw
  obtain ⟨hg, hm, ⟨rfl, rfl, hr, t, ht, rfl⟩ | ⟨rfl, rfl, hp, t, ht, rfl⟩ | ⟨rfl, rfl, hr, t, ht, rfl⟩⟩ := h
  · refine ⟨s.startLimitExpires l, rfl, fun _ => ?_, nofun⟩
    rw [State.startLimitExpires, ht]
    exact if_pos ⟨hwork, hr, Line.isAsync_of_mode hg hm⟩
  · refine ⟨s.settleLimitExpires l, rfl, fun _ => ?_, nofun⟩
    rw [State.settleLimitExpires, Line.expiry_eq hg ht]
    exact if_pos ⟨hwork, hp, Line.isAsync_of_mode hg hm⟩
  · refine ⟨s.stuckExpires l, rfl, fun hne => absurd rfl hne, fun _ => ?_⟩
    have hruns : (s.line l).receiverRuns = true := by
      simp [Line.receiverRuns, Line.isAsync_of_mode hg hm, Line.inService, hr, or_assoc]
    rw [State.stuckExpires, Line.expiry_eq hg ht]
    exact if_pos ⟨hwork, hruns⟩

/-- What a line fault at device time `due` makes of the part. -/
theorem State.faultLine_frame {s : State} {l : LineId} (hlines : s.LinesOk) (hattempts : s.AttemptsOk) (hscan : s.ScannersOk)
    (cause : LineFault) (due : Nat) :
    OnlyLine s ((reached s due).faultLine l cause) l
    ∧ ((reached s due).faultLine l cause).deviceTime = (reached s due).deviceTime
    ∧ LineFaulted cause (s.line l) (((reached s due).faultLine l cause).line l)
    ∧ s.Unattempted true l ((reached s due).faultLine l cause) := by
  have hstop := State.endWork_stopped (s := reached s due) (l := l) (Line.activeIsRequester hlines hattempts l) (hscan l) .lineFault true
  have heq : (reached s due).faultLine l cause =
      ((reached s due).endWork l .lineFault true).modLine l (·.enterFaulted cause) := rfl
  rw [heq]
  refine ⟨((OnlyLine.reachUs s l due).trans hstop.only).trans (.modLine _ l _), hstop.time, ?_, hstop.entries.hit, hstop.entries.miss⟩
  rw [State.line_modLine_same]
  exact LineFaulted.enterFaulted hstop.work (by rw [hstop.line]) cause

/-- Settles O37. -/
theorem lineFaultTimersFaultTheLine : Obligations.LineFaultTimersFaultTheLine := by
  intro s l g i cause due hw htimer hlines hattempts hscan hk
  obtain ⟨v, hexec, hfaults, hstuck⟩ := faultTimer_effect hw htimer
  obtain ⟨honly, htime, hfaulted, hentries⟩ := State.faultLine_frame (l := l) hlines hattempts hscan cause due
  have hdevice : ((reached s due).faultLine l cause).device = s.device := by rw [honly.state]
  generalize (reached s due).faultLine l cause = u at *
  refine ⟨fun hcase => ?_, fun hd hc => ?_⟩
  · have hv : v = u := by
      by_cases hc : cause = .stuck
      · rw [hstuck hc]
        have hrun : s.device = .running := hcase.resolve_right fun h => h hc
        exact if_neg (by rw [hdevice, hrun]; simp)
      · exact hfaults hc
    refine ⟨u, _, hexec, hv ▸ .react u, honly, htime, hfaulted, fun e he => ?_, fun e x hx => ?_⟩
    · rw [hentries.miss e, he]
      rintro ⟨a, ha, hl⟩
      obtain ⟨x, hx, -⟩ := State.lookup_some hl
      rw [he] at hx
      cases hx
    · have hat := State.attemptAt_iff hk (l := l) hx
      by_cases hhit : s.attemptAt l e
      · have hhit' := hat.mp hhit
        rw [hentries.hit e x hx hhit]
        by_cases hdet : x.state = .detaching
        · rw [if_pos ⟨hhit', hdet⟩, if_pos ⟨rfl, hdet⟩]
        · rw [if_neg (fun h => hdet h.2), if_pos hhit', if_neg (fun h => hdet h.2)]
      · rw [if_neg fun h => hhit (hat.mpr h.1), if_neg fun h => hhit (hat.mpr h), hentries.miss e hhit, hx]
  · have hv : v = u.modLine l fun x => { x.enterStopped with linePending := false } := by
      rw [hstuck hc]
      exact if_pos (hdevice.trans hd)
    have hline : (u.modLine l fun x => { x.enterStopped with linePending := false }).line l =
        { (u.line l).enterStopped with linePending := false } := State.line_modLine_same _ _ _
    rw [hv] at hexec
    refine ⟨_, _, hexec, .react _, honly.trans (.modLine u l _), ?_, ?_, ?_, ?_⟩
    · rw [hline]
      exact WorkEnded.line hfaulted.work rfl rfl rfl rfl ⟨rfl, rfl, rfl, rfl, rfl⟩
    · rw [hline]; rfl
    · rw [hline, ← hc]
      exact hfaulted.run.2.2.1
    · rw [hline]

end Sys2Proof.Machine

/-! # LINE_STOP and the entry to DISABLING (chapters 4, 9 and 10) -/

namespace Sys2Proof.Machine

open Sys2Proof.Claims

/-! ## The graceful stop (R68, R119, R166) -/

/-- What a graceful stop makes of a slot: it ends ABORTED where it is DEFERRED for a station with redelivery pending (R166). -/
def State.gracefulSlot (s : State) (l : LineId) (y : Slot) : Slot :=
  match s.keyed l y.addr with
  | some st => if y.state = .deferred ∧ st.redelivery then y.finishPlain .aborted else y
  | none => y

theorem State.gracefulSlot_cut {s : State} {l : LineId} {y : Slot} (h : y.state = .deferred)
    (hst : ∃ st ∈ s.keyed l y.addr, st.redelivery = true) : SlotCut .aborted y (s.gracefulSlot l y) := by
  obtain ⟨st, hk, hr⟩ := hst
  unfold SlotCut State.gracefulSlot
  rw [h, Option.mem_def.mp hk]
  exact if_pos ⟨rfl, hr⟩

theorem State.gracefulSlot_keep {s : State} {l : LineId} {y : Slot}
    (h : ¬ (y.state = .deferred ∧ ∃ st ∈ s.keyed l y.addr, st.redelivery = true)) : s.gracefulSlot l y = y := by
  unfold State.gracefulSlot
  split
  · next st hk => exact if_neg fun hd => h ⟨hd.1, st, hk, hd.2⟩
  · rfl

/-- The Scanner's part of a graceful stop: a poll not yet granted is dropped. -/
theorem State.holdingDropped_frame {s t : State} {l : LineId} (h : (s.line l).scanner.Ok)
    (ht : t = if (s.line l).scanner.state = .holding then s.dropPoll l else s) :
    OnlyLine s t l ∧ t.stations = s.stations ∧ t.deviceTime = s.deviceTime
    ∧ t.line l = { s.line l with scanner := (t.line l).scanner }
    ∧ (if (s.line l).scanner.state = .holding then (t.line l).scanner.state = .idle ∧ (t.line l).scanner.reservation = none
       else (t.line l).scanner = (s.line l).scanner) := by
  obtain ⟨honly, hstations, htime, hline, -, hpoll⟩ := State.dropPoll_frame h
  by_cases hs : (s.line l).scanner.state = .holding
  · rw [ht, if_pos hs, if_pos hs]
    exact ⟨honly, hstations, htime, hline, hpoll (by simp [hs])⟩
  · rw [ht, if_neg hs, if_neg hs]
    exact ⟨.refl s l, rfl, rfl, rfl, rfl⟩

theorem State.gracefulStop_frame {s : State} {l : LineId} (h : (s.line l).scanner.Ok) :
    OnlyLine s (s.gracefulStop l) l ∧ (s.gracefulStop l).stations = s.stations ∧ (s.gracefulStop l).deviceTime = s.deviceTime
    ∧ (s.gracefulStop l).line l = { s.line l with
        run := .stopping, scanner := ((s.gracefulStop l).line l).scanner, slots := ((s.gracefulStop l).line l).slots }
    ∧ (if (s.line l).scanner.state = .holding then ((s.gracefulStop l).line l).scanner.state = .idle
          ∧ ((s.gracefulStop l).line l).scanner.reservation = none
       else ((s.gracefulStop l).line l).scanner = (s.line l).scanner)
    ∧ ∀ i, ((s.gracefulStop l).line l).slot i = ((s.line l).slot i).map (s.gracefulSlot l) := by
  have hrun : (s.modLine l fun x => { x with run := .stopping }).line l = { s.line l with run := .stopping } :=
    State.line_modLine_same _ _ _
  obtain ⟨t, ht⟩ : ∃ t, t = if ((s.modLine l fun x => { x with run := .stopping }).line l).scanner.state = .holding
      then (s.modLine l fun x => { x with run := .stopping }).dropPoll l else s.modLine l fun x => { x with run := .stopping } := ⟨_, rfl⟩
  obtain ⟨honly, hstations, htime, hline, hscan⟩ := State.holdingDropped_frame (by rw [hrun]; exact h) ht
  have heq : s.gracefulStop l = t.abortRedeliveryDeferred l := by rw [ht]; rfl
  rw [heq]
  rw [hrun] at hline hscan
  have hkeyed : ∀ a, t.keyed l a = s.keyed l a := fun a => by
    have hs : ∀ e, t.station e = s.station e := fun e => by rw [State.station, hstations]; rfl
    have hl : t.lookup l a = s.lookup l a := State.lookup_congr (fun e => by rw [State.keyAt, hs]; rfl) l a
    rw [State.keyed, hl]
    exact congrArg _ (funext hs)
  have hslot : t.gracefulSlot l = s.gracefulSlot l := funext fun y => by rw [State.gracefulSlot, State.gracefulSlot, hkeyed]
  have habort : t.abortRedeliveryDeferred l = t.modLine l fun x => x.mapSlots (t.gracefulSlot l) := rfl
  rw [habort, hslot]
  have hend := State.line_modLine_same t l fun x : Line => x.mapSlots (s.gracefulSlot l)
  refine ⟨((OnlyLine.modLine s l _).trans honly).trans (.modLine t l _), hstations, htime, ?_, ?_, fun i => ?_⟩
  · rw [hend, hline]; rfl
  · rw [hend]; exact hscan
  · rw [hend, Line.slot_mapSlots, hline]; rfl

/-! ## The abort stop (R69) -/

/-- The line of which the work has ended, as an abort stop leaves it: a character in SENDING is finished first. -/
theorem LineAborted.of_workStopped {s t : State} {l : LineId} (h : State.WorkStopped .aborted false l s t) {y : Line}
    (hsending : (s.line l).phase = some .sending → y = { t.line l with run := .stopping, abortStop := true, attempt := none })
    (hother : (s.line l).phase ≠ some .sending → y = (t.line l).enterStopped) : LineAborted (s.line l) y := by
  have hrxd : (t.line l).pins = (s.line l).pins := by rw [h.line]
  have hfault : (t.line l).lastFault = (s.line l).lastFault := by rw [h.line]
  by_cases hp : (s.line l).phase = some .sending
  · rw [hsending hp]
    have hpt : (t.line l).phase = some .sending := by rw [h.line]; exact hp
    exact {
      work := WorkEnded.line h.work rfl rfl rfl rfl ⟨rfl, rfl, rfl, rfl, rfl⟩
      sending := fun _ => ⟨rfl, hpt, rfl, hrxd, by rw [h.line], by rw [h.line]⟩
      other := fun hn => absurd hp hn
      lastFault := ⟨hfault, congrArg Pins.rxd hrxd⟩ }
  · rw [hother hp]
    exact {
      work := WorkEnded.line h.work rfl rfl rfl rfl ⟨rfl, rfl, rfl, rfl, rfl⟩
      sending := fun hn => absurd hn hp
      other := fun _ => rfl
      lastFault := ⟨hfault, show (t.line l).pins.rxd = _ from congrArg Pins.rxd hrxd⟩ }

/-- The abort stop of one line, on the part and on the line. -/
theorem State.abortLine_frame {s : State} {l : LineId} (hactive : (s.line l).ActiveIsRequester) (hscan : (s.line l).scanner.Ok) :
    OnlyLine s (s.abortLine l) l ∧ (s.abortLine l).deviceTime = s.deviceTime ∧ s.Unattempted false l (s.abortLine l)
    ∧ LineAborted (s.line l) ((s.abortLine l).line l)
    ∧ ((s.abortLine l).line l).noticeQueue = (s.line l).noticeQueue
    ∧ ((s.abortLine l).line l).linePending = (s.line l).linePending := by
  have hstop := State.endWork_stopped hactive hscan .aborted false
  have heq : s.abortLine l = (s.endWork l .aborted false).modLine l fun x =>
      if x.phase = some .sending then { x with run := .stopping, abortStop := true, attempt := none } else x.enterStopped := rfl
  rw [heq]
  have hphase : ((s.endWork l .aborted false).line l).phase = (s.line l).phase := by rw [hstop.line]
  have hqueue := hstop.queue rfl
  have hpending : ((s.endWork l .aborted false).line l).linePending = (s.line l).linePending := by rw [hstop.line]
  refine ⟨hstop.only.trans (.modLine _ l _), hstop.time, ⟨hstop.entries.hit, hstop.entries.miss⟩, ?_, ?_, ?_⟩
  · rw [State.line_modLine_same]
    exact LineAborted.of_workStopped hstop (fun hp => if_pos (hphase.trans hp)) (fun hp => if_neg (hphase ▸ hp))
  all_goals rw [State.line_modLine_same]
  · split
    · exact hqueue
    · exact hqueue
  · split
    · exact hpending
    · exact hpending

/-- Where an abandonment frees no entry, it sets sync-needed of the station the attempt is to. -/
theorem State.Unattempted.used {s t : State} {l : LineId} (h : s.Unattempted false l t) {e : EntryId} {x : Station}
    (hx : s.station e = some x) : ∃ y ∈ t.station e, y = { x with syncNeeded := y.syncNeeded }
      ∧ (y.syncNeeded = true ↔ x.syncNeeded = true ∨ s.attemptAt l e) := by
  by_cases hat : s.attemptAt l e
  · exact ⟨{ x with syncNeeded := true }, (h.hit e x hx hat).trans (if_neg (by simp)), rfl, by simp [hat]⟩
  · exact ⟨x, (h.miss e hat).trans hx, rfl, by simp [hat]⟩

theorem State.Unattempted.unused {s t : State} {l : LineId} {free : Bool} (h : s.Unattempted free l t) {e : EntryId}
    (he : s.station e = none) : t.station e = none := by
  rw [h.miss e, he]
  rintro ⟨a, -, hl⟩
  obtain ⟨x, hx, -⟩ := State.lookup_some hl
  rw [he] at hx
  cases hx

/-! ## LINE_STOP (R166) -/

theorem State.adminLineStop_stopped {s : State} {l : LineId} {mode : Byte} (hm : ¬ 1 < mode.toNat) (hr : (s.line l).run = .stopped) :
    s.adminLineStop (BitVec.ofNat 8 l) mode = s.adminDecide .ok 0 := by
  rw [State.adminLineStop, lineOf_ofNat]
  dsimp only
  rw [if_neg hm, hr]

theorem State.adminLineStop_faulted {s : State} {l : LineId} {mode : Byte} (hm : ¬ 1 < mode.toNat) (hr : (s.line l).run = .faulted) :
    s.adminLineStop (BitVec.ofNat 8 l) mode = (s.modLine l Line.enterStopped).adminDecide .ok 0 := by
  rw [State.adminLineStop, lineOf_ofNat]
  dsimp only
  rw [if_neg hm, hr]

theorem State.adminLineStop_running {s : State} {l : LineId} {mode : Byte} (hm : ¬ 1 < mode.toNat) (hr : (s.line l).run = .running) :
    s.adminLineStop (BitVec.ofNat 8 l) mode =
      if mode = 0 then (s.gracefulStop l).adminWait (.lineStop l) 0 else (s.abortLine l).adminWait (.lineAbort l) 0 := by
  rw [State.adminLineStop, lineOf_ofNat]
  dsimp only
  rw [if_neg hm, hr]

/-- A command that reaches one line and then waits. -/
theorem State.adminWait_onlyLine {s v : State} {tag : Half} {c : AdminCmd} {l : LineId} (w : AdminWait)
    (h : OnlyLine (s.adminTaken (encodeAdmin tag c)) v l) (htime : v.deviceTime = s.deviceTime) :
    v.adminWait w 0 = { waiting s tag c w 0 with crings := v.crings, lines := v.lines, stations := v.stations } := by
  have hstate := h.state
  rw [htime] at hstate
  rw [hstate]
  rfl

theorem onlyLine_other {s u : State} {l : LineId} (h : OnlyLine s u l) {k : LineId} (hk : k ≠ l) :
    u.line k = { s.line k with scanner := (u.line k).scanner }
    ∧ (u.line k).scanner = { (s.line k).scanner with refused := (u.line k).scanner.refused } := by
  have hline := h.others k hk
  have hscan : (u.line k).scanner = { (s.line k).scanner with refused := (u.line k).scanner.refused } := by
    rw [hline]
  exact ⟨by rw [hline], hscan⟩

theorem State.attemptAt_iff_attemptTo {s : State} {l : LineId} {e : EntryId} {y : Station} (hy : s.station e = some y) :
    s.attemptAt l e ↔ y.line = l ∧ AttemptTo s e y := by
  constructor
  · rintro ⟨b, hb, hlookup⟩
    obtain ⟨z, hz, rfl, -⟩ := State.lookup_some hlookup
    obtain rfl := Option.some.inj (hy.symm.trans hz)
    exact ⟨rfl, b, hb, hlookup⟩
  · rintro ⟨rfl, b, hb, hlookup⟩
    exact ⟨b, hb, hlookup⟩

/-- A command that reaches one line without its stations and then waits. -/
theorem State.adminWait_lineOnly {s v : State} {tag : Half} {c : AdminCmd} {l : LineId} (w : AdminWait)
    (h : OnlyLine (s.adminTaken (encodeAdmin tag c)) v l) (htime : v.deviceTime = s.deviceTime)
    (hstations : v.stations = (s.adminTaken (encodeAdmin tag c)).stations) :
    v.adminWait w 0 = { waiting s tag c w 0 with crings := v.crings, lines := v.lines } := by
  rw [State.adminWait_onlyLine w h htime, hstations]
  rfl

/-- Settles O22. -/
theorem lineStopByRunState : Obligations.LineStopByRunState := by
  intro s tag l mode c x h
  have hm : ¬ 1 < mode.toNat := by
    obtain ⟨-, hb, -⟩ := h
    exact fun e => hb (.inr e)
  generalize htaken : s.adminTaken (encodeAdmin tag c) = v
  have hrun : v.line l = x := by rw [← htaken]; rfl
  have hleads : ∀ u, v.runAdmin c = u → ∃ t, exec (adminInstr tag c) s = .next t ∧ AfterUnits u t := fun u hu =>
    passes_leads h (by rw [htaken]; exact hu)
  refine ⟨fun hr => ?_, fun hr => ?_, fun hr h0 hscan => ?_, fun hr h1 hlines hattempts hscan => ?_⟩
  · have heff := State.adminLineStop_stopped hm (hrun ▸ hr : (v.line l).run = .stopped)
    rw [← htaken] at heff
    exact passes_leads h heff
  · have heff := State.adminLineStop_faulted hm (hrun ▸ hr : (v.line l).run = .faulted)
    rw [← htaken] at heff
    exact passes_leads h heff
  · have hscan : (v.line l).scanner.Ok := by rw [hrun]; exact hscan
    obtain ⟨honly, hstations, htime, hline, hpoll, hslots⟩ := State.gracefulStop_frame hscan
    obtain ⟨t, ht, hu⟩ := hleads _ ((State.adminLineStop_running hm (hrun ▸ hr : (v.line l).run = .running)).trans (if_pos h0))
    generalize v.gracefulStop l = u at *
    subst htaken
    refine ⟨_, t, ht, hu, honly.crings, State.adminWait_lineOnly _ honly htime hstations, fun k hk => onlyLine_other honly hk, hline,
      hpoll, fun i hi => ?_, fun i a ha => ?_⟩
    · exact (hslots i).trans (congrArg (Option.map _) hi)
    · refine ⟨_, (hslots i).trans (congrArg (Option.map _) ha), fun hcut => ?_, fun hcut => State.gracefulSlot_keep hcut⟩
      exact State.gracefulSlot_cut hcut.1 hcut.2
  · have hactive : (v.line l).ActiveIsRequester := by rw [hrun]; exact Line.activeIsRequester hlines hattempts l
    have hscanner : (v.line l).scanner.Ok := by rw [hrun]; exact hscan l
    obtain ⟨honly, htime, hentries, haborted, hqueue, hpending⟩ := State.abortLine_frame hactive hscanner
    have hne : ¬ mode = 0 := by rw [h1]; decide
    obtain ⟨t, ht, hu⟩ := hleads _ ((State.adminLineStop_running hm (hrun ▸ hr : (v.line l).run = .running)).trans (if_neg hne))
    generalize v.abortLine l = u at *
    have hat : ∀ e, v.attemptAt l e ↔ s.attemptAt l e := fun e => by rw [← htaken]; rfl
    have hstation : ∀ e, v.station e = s.station e := fun e => by rw [← htaken]; rfl
    subst htaken
    refine ⟨_, t, ht, hu, honly.crings, State.adminWait_onlyLine _ honly htime, haborted, hqueue, hpending,
      fun k hk => onlyLine_other honly hk, fun e he => hentries.unused ((hstation e).trans he), fun e y hy => ?_⟩
    obtain ⟨z, hz, hzy, hsync⟩ := hentries.used ((hstation e).trans hy)
    exact ⟨z, hz, hzy, by rw [hsync, hat, State.attemptAt_iff_attemptTo hy]⟩

/-! ## The entry to DISABLING (R72, R174) -/

/-- An aborted line stays so where a refused Scanner may claim again and its notices are dropped. -/
theorem LineAborted.congr {x y : Line} (h : LineAborted x y) (b c p : Bool) (q : List EntryId) :
    LineAborted { x with scanner := { x.scanner with refused := b } }
      { y with scanner := { y.scanner with refused := c }, linePending := p, noticeQueue := q } where
  work := ⟨h.work.attempt, h.work.delivery, h.work.poll, h.work.kept, h.work.freeSlots, h.work.slots, h.work.read⟩
  sending := h.sending
  other hn := by
    have hy := h.other hn
    change { stoppedLine y with scanner := { y.scanner with refused := c }, linePending := p, noticeQueue := q } = _
    rw [hy]
  lastFault := h.lastFault

/-- A line that is neither RUNNING nor STOPPING has no phase, and comes to STOPPED at once. -/
theorem State.disableStopped_frame {s : State} {l : LineId} (hactive : (s.line l).ActiveIsRequester) (hscan : (s.line l).scanner.Ok)
    (hphase : (s.line l).phase = none) :
    OnlyLine s ((s.endWork l .aborted false).modLine l Line.enterStopped) l
    ∧ ((s.endWork l .aborted false).modLine l Line.enterStopped).deviceTime = s.deviceTime
    ∧ s.Unattempted false l ((s.endWork l .aborted false).modLine l Line.enterStopped)
    ∧ LineAborted (s.line l) (((s.endWork l .aborted false).modLine l Line.enterStopped).line l) := by
  have hstop := State.endWork_stopped hactive hscan .aborted false
  refine ⟨hstop.only.trans (.modLine _ l _), hstop.time, ⟨hstop.entries.hit, hstop.entries.miss⟩, ?_⟩
  rw [State.line_modLine_same]
  exact LineAborted.of_workStopped hstop (fun hp => by simp [hphase] at hp) (fun _ => rfl)

theorem State.disableLine_frame {s : State} {l : LineId} (hactive : (s.line l).ActiveIsRequester) (hscan : (s.line l).scanner.Ok)
    (hphase : (s.line l).phase.isSome = true ↔ (s.line l).run = .running ∨ (s.line l).run = .stopping) :
    OnlyLine s (s.disableLine l) l ∧ (s.disableLine l).deviceTime = s.deviceTime ∧ s.Unattempted false l (s.disableLine l)
    ∧ LineAborted (s.line l) ((s.disableLine l).line l) := by
  have hnone : (s.line l).run ≠ .running → (s.line l).run ≠ .stopping → (s.line l).phase = none := fun h1 h2 => by
    by_contra hp
    exact (hphase.mp (Option.isSome_iff_ne_none.mpr hp)).elim h1 h2
  obtain ⟨honly, htime, hentries, haborted, -⟩ := State.abortLine_frame hactive hscan
  unfold State.disableLine
  cases hr : (s.line l).run with
  | running => exact ⟨honly, htime, hentries, haborted⟩
  | stopping => exact ⟨honly, htime, hentries, haborted⟩
  | stopped => exact State.disableStopped_frame hactive hscan (hnone (by simp [hr]) (by simp [hr]))
  | starting => exact State.disableStopped_frame hactive hscan (hnone (by simp [hr]) (by simp [hr]))
  | faulted => exact State.disableStopped_frame hactive hscan (hnone (by simp [hr]) (by simp [hr]))

/-- The lines `ls` have been disabled, the others not yet. -/
structure State.Disables (ls : List LineId) (s t : State) : Prop where
  state : t = { s with crings := t.crings, lines := t.lines, stations := t.stations }
  crings : CRingsKept s t
  done : ∀ k ∈ ls, LineAborted (s.line k) (t.line k)
  todo : ∀ k, k ∉ ls → t.line k = { s.line k with scanner := { (s.line k).scanner with refused := (t.line k).scanner.refused } }
  unused : ∀ e, s.station e = none → t.station e = none
  used : ∀ e, ∀ x ∈ s.station e, ∃ y ∈ t.station e, y = { x with syncNeeded := y.syncNeeded }
    ∧ (y.syncNeeded = true ↔ x.syncNeeded = true ∨ ∃ l ∈ ls, s.attemptAt l e)

theorem State.Disables.keyAt {ls : List LineId} {s t : State} (h : State.Disables ls s t) (e : EntryId) : t.keyAt e = s.keyAt e := by
  unfold State.keyAt
  cases hx : s.station e with
  | none => rw [h.unused e hx]
  | some x =>
    obtain ⟨y, hy, heq, -⟩ := h.used e x hx
    rw [Option.mem_def.mp hy, heq]
    rfl

/-- One more line is disabled. -/
theorem State.Disables.snoc {ls : List LineId} {l : LineId} {s t : State} (h : State.Disables ls s t) (hl : l ∉ ls)
    (hlines : s.LinesOk) (hattempts : s.AttemptsOk) (hscan : s.ScannersOk) : State.Disables (ls ++ [l]) s (t.disableLine l) := by
  have hline := h.todo l hl
  have hactive : (t.line l).ActiveIsRequester := by rw [hline]; exact Line.activeIsRequester hlines hattempts l
  have hscanner : (t.line l).scanner.Ok := by rw [hline]; exact hscan l
  have hphase : (t.line l).phase.isSome = true ↔ (t.line l).run = .running ∨ (t.line l).run = .stopping := by
    rw [hline]; exact (hlines l).1
  obtain ⟨honly, htime, hentries, haborted⟩ := State.disableLine_frame hactive hscanner hphase
  have hat : ∀ e, t.attemptAt l e ↔ s.attemptAt l e := fun e => by
    have : (t.line l).attempt = (s.line l).attempt := by rw [hline]
    simp only [State.attemptAt, this, State.lookup_congr h.keyAt]
  have hstate := honly.state
  rw [htime] at hstate
  exact {
    state := by rw [hstate, h.state]
    crings := h.crings.trans honly.crings
    done := fun k hk => by
      by_cases e : k = l
      · subst e
        rw [hline] at haborted
        exact LineAborted.congr haborted (s.line k).scanner.refused ((t.disableLine k).line k).scanner.refused
          ((t.disableLine k).line k).linePending ((t.disableLine k).line k).noticeQueue
      · have hk' : k ∈ ls := by simpa [e] using hk
        rw [honly.others k e]
        exact LineAborted.congr (h.done k hk') (s.line k).scanner.refused _ (t.line k).linePending (t.line k).noticeQueue
    todo := fun k hk => by
      obtain ⟨hk', hne⟩ : k ∉ ls ∧ k ≠ l := by simpa using hk
      rw [honly.others k hne, h.todo k hk']
    unused := fun e he => hentries.unused (h.unused e he)
    used := fun e x hx => by
      obtain ⟨y, hy, hxy, hsync⟩ := h.used e x hx
      obtain ⟨z, hz, hyz, hsync'⟩ := hentries.used hy
      refine ⟨z, hz, by rw [hyz, hxy], ?_⟩
      simp only [hsync', hsync, hat, List.mem_append, List.mem_singleton]
      constructor
      · rintro ((h | ⟨m, hm, h⟩) | h)
        exacts [.inl h, .inr ⟨m, .inl hm, h⟩, .inr ⟨l, .inr rfl, h⟩]
      · rintro (h | ⟨m, hm | rfl, h⟩)
        exacts [.inl (.inl h), .inl (.inr ⟨m, hm, h⟩), .inr h] }

theorem State.Disables.foldl {s : State} (hlines : s.LinesOk) (hattempts : s.AttemptsOk) (hscan : s.ScannersOk) :
    ∀ (ms ls : List LineId) (t : State), State.Disables ls s t → (ls ++ ms).Nodup →
      State.Disables (ls ++ ms) s (ms.foldl State.disableLine t) := by
  intro ms
  induction ms with
  | nil => exact fun ls t h _ => by rw [List.append_nil]; exact h
  | cons m ms ih =>
    intro ls t h hnodup
    have hm : m ∉ ls := fun hm => by
      have := (List.nodup_append.mp hnodup).2.2 m hm m (by simp)
      exact this rfl
    have hstep := h.snoc hm hlines hattempts hscan
    have := ih (ls ++ [m]) _ hstep (by simpa using hnodup)
    simpa using this

theorem State.Disables.start (s : State) : State.Disables [] s s where
  state := rfl
  crings := .refl s
  done k hk := by simp at hk
  todo _ _ := rfl
  unused _ := id
  used e x hx := ⟨x, hx, rfl, by simp⟩

theorem State.abortAdmin_cases (s : State) :
    (s.admin.phase ≠ .waiting → s.abortAdmin = s)
    ∧ (s.admin.phase = .waiting → ∀ c ∈ s.admin.command, s.abortAdmin = { s with
        admin := ⟨.completing, some { c with wait := none, result := some (.aborted, c.waitValue) }, false, none⟩ }) := by
  unfold State.abortAdmin
  refine ⟨fun h => ?_, fun h c hc => ?_⟩
  · split
    · next hp _ => exact absurd hp h
    · rfl
  · rw [h, Option.mem_def.mp hc]
    dsimp only
    rw [State.adminDecide, Option.mem_def.mp hc]
    rfl

theorem State.abortAdmin_state (s : State) : s.abortAdmin = { s with admin := s.abortAdmin.admin } := by
  unfold State.abortAdmin
  split <;> rfl

/-- All notices have been dropped and a waiting command has completed ABORTED. -/
structure State.NoticesDropped (v w : State) : Prop where
  lines : ∀ l, w.line l = { v.line l with linePending := false, noticeQueue := [] }
  stations : ∀ e, w.station e = (v.station e).map fun x => { x with noticePending := false }
  rest : ∃ ls ss ad, w = { v with lines := ls, stations := ss, admin := ad }
  idle : v.admin.phase ≠ .waiting → w.admin = v.admin
  waits : v.admin.phase = .waiting → ∀ c ∈ v.admin.command,
    w.admin = ⟨.completing, some { c with wait := none, result := some (.aborted, c.waitValue) }, false, none⟩

theorem State.NoticesDropped.of_abortAdmin (v : State) : v.NoticesDropped v.dropNotices.abortAdmin := by
  have hstate := v.dropNotices.abortAdmin_state
  obtain ⟨hidle, hwaiting⟩ := v.dropNotices.abortAdmin_cases
  exact {
    lines := fun l => by rw [hstate]; exact vget_vmap _ _ _
    stations := fun e => by rw [hstate]; exact vget_vmap _ _ _
    rest := ⟨_, _, _, hstate⟩
    idle := fun hp => by rw [hidle hp]; rfl
    waits := fun hp c hc => by rw [hwaiting hp c hc] }

/-- The effect of ENABLE written 0 in RUNNING, line by line. -/
theorem State.writeEnable_disables {s : State} (hd : s.device = .running) (he : s.enable = true) (hlines : s.LinesOk)
    (hattempts : s.AttemptsOk) (hscan : s.ScannersOk) :
    ∃ v w, State.Disables (List.finRange 8) { s with enable := false, device := .disabling } v ∧ v.NoticesDropped w
      ∧ s.writeEnable false = w := by
  have hdis := State.Disables.foldl (s := { s with enable := false, device := .disabling }) hlines hattempts hscan (List.finRange 8) [] _
    (.start _) (by simpa using List.nodup_finRange 8)
  refine ⟨_, _, hdis, .of_abortAdmin _, ?_⟩
  unfold State.writeEnable
  rw [hd]
  dsimp only
  rw [he, Bool.not_false, Bool.and_self, if_pos rfl, State.beginDisable]

/-- A part that has entered DISABLING differs in its enable field, its state, and what its lines, stations and command have in hand. -/
theorem State.Disables.registers {ls : List LineId} {s v w : State} (h : State.Disables ls { s with enable := false, device := .disabling } v)
    (hw : v.NoticesDropped w) : w.crings = v.crings ∧ ∃ cs ls ss ad, w = { s with
      enable := false, device := .disabling, crings := cs, lines := ls, stations := ss, admin := ad } := by
  obtain ⟨ls, ss, ad, hw⟩ := hw.rest
  obtain ⟨cs, ls', ss', hv⟩ : ∃ cs ls ss, v = { s with
      enable := false, device := .disabling, crings := cs, lines := ls, stations := ss } := ⟨_, _, _, h.state⟩
  rw [hw, hv]
  exact ⟨rfl, _, _, _, _, rfl⟩

/-- Settles O9. -/
theorem disableEndsTheWorkInHand : Obligations.DisableEndsTheWorkInHand := by
  intro s hd he hlines hattempts hscan
  obtain ⟨v, w, hdis, hdrop, heff⟩ := State.writeEnable_disables hd he hlines hattempts hscan
  obtain ⟨t, ht, hu⟩ := leads_of_eq (i := .enable false) (s := s) rfl heff
  obtain ⟨hcrings, hsame⟩ := hdis.registers hdrop
  have hadmin : v.admin = s.admin := by rw [hdis.state]
  have hkept := hdis.crings.trans (.of_eq hcrings)
  have hlines : ∀ l, LineAborted (s.line l) (w.line l) ∧ (w.line l).noticeQueue = [] ∧ (w.line l).linePending = false := fun l => by
    rw [hdrop.lines]
    exact ⟨LineAborted.congr (hdis.done l (List.mem_finRange l)) (s.line l).scanner.refused (v.line l).scanner.refused false [], rfl, rfl⟩
  have hunused : ∀ e, s.station e = none → w.station e = none := fun e he => by
    rw [hdrop.stations, hdis.unused e he]
    rfl
  have hused : ∀ e, ∀ x ∈ s.station e, ∃ y ∈ w.station e, y = { x with noticePending := false, syncNeeded := y.syncNeeded }
      ∧ (y.syncNeeded = true ↔ x.syncNeeded = true ∨ AttemptTo s e x) := fun e x hx => by
    obtain ⟨y, hy, hxy, hsync⟩ := hdis.used e x hx
    refine ⟨{ y with noticePending := false }, by rw [hdrop.stations, Option.mem_def.mp hy]; rfl, by rw [hxy], ?_⟩
    rw [attemptTo_iff hx]
    exact hsync
  have hidle := hdrop.idle
  have hwaits := hdrop.waits
  rw [hadmin] at hidle hwaits
  refine ⟨w, t, ht, hu, ?_⟩
  obtain ⟨cs, ls, ss, ad, hw⟩ := hsame
  refine ⟨by rw [hw], by rw [hw], by rw [hw], by rw [hw], by rw [hw], by rw [hw], by rw [hw], by rw [hw], by rw [hw], by rw [hw],
    by rw [hw], by rw [hw], by rw [hw], fun r => by rw [hw]; rfl, hkept, hlines, hunused, hused, hidle, hwaits⟩

end Sys2Proof.Machine

/-! # What a line receives where its exchange goes on (chapters 1 and 4) -/

namespace Sys2Proof.Machine

open Sys2Proof.Claims

/-! ## A line changed more than once -/

theorem State.modLine_setLine (s : State) (l : LineId) (x : Line) (f : Line → Line) : (s.setLine l x).modLine l f = s.setLine l (f x) := by
  rw [State.modLine, State.line_setLine_same, State.setLine_setLine]

theorem State.setLine_self (s : State) (l : LineId) : s.setLine l (s.line l) = s := by
  unfold State.setLine State.line
  rw [vput_vget]

theorem Line.inService_iff {x : Line} : x.inService = true ↔ x.run = .starting ∨ x.run = .running ∨ x.run = .stopping := by
  simp [Line.inService, or_assoc]

/-! ## The character's report (R3, R5) -/

/-- A character received on an async line in service is taken by its report. -/
theorem State.characterArrives_async {s : State} {l : LineId} {g : LineConfig} (hg : (s.line l).config = some g) (hw : Works s)
    (hm : g.mode = .async) (hrun : (s.line l).run = .starting ∨ (s.line l).run = .running ∨ (s.line l).run = .stopping)
    (raw : RawChar) : s.characterArrives l raw = s.asyncReport l (reportOf g raw) := by
  rw [State.characterArrives, if_pos ((works_iff s).mp hw), hg]
  dsimp only
  rw [hm]
  exact if_pos (Line.inService_iff.mpr hrun)

theorem State.characterArrives_clocked {s : State} {l : LineId} {g : LineConfig} (hg : (s.line l).config = some g) (hw : Works s)
    (hm : g.mode = .clocked) (raw : RawChar) : s.characterArrives l raw = s.clockedCharacter l g raw.data := by
  have hvalue : (reportOf g raw).value = raw.data := by rw [reportOf, hm]
  rw [State.characterArrives, if_pos ((works_iff s).mp hw), hg]
  dsimp only
  rw [hm, hvalue]

/-- The line once the character's reception is over. -/
def Line.receptionOver (x : Line) : Line := { x with inReception := false }

theorem State.receptionOver_eq (s : State) (l : LineId) :
    (s.modLine l fun x => { x with inReception := false }) = s.setLine l (s.line l).receptionOver := rfl

theorem State.asyncReport_starting {s : State} {l : LineId} {r : Report} (h : (s.line l).run = .starting) :
    s.asyncReport l r = s.setLine l ((s.line l).receptionOver.countStray.restartQuiet s.nowUs) := by
  have hrun : ((s.setLine l (s.line l).receptionOver).line l).run = .starting := by rw [State.line_setLine_same]; exact h
  exact (if_pos hrun).trans (State.modLine_setLine _ _ _ _)

section InService

variable {s : State} {l : LineId} (r : Report) (h : (s.line l).run ≠ .starting)
include h

theorem State.asyncReport_idle (hp : (s.line l).phase = some .idle) :
    s.asyncReport l r = s.setLine l ((s.line l).receptionOver.countStray.enterSettle s.nowUs) := by
  unfold State.asyncReport
  dsimp only
  rw [State.receptionOver_eq, State.line_setLine_same, if_neg (show (s.line l).receptionOver.run ≠ _ from h),
    show (s.line l).receptionOver.phase = _ from hp]
  exact State.modLine_setLine _ _ _ _

theorem State.asyncReport_settle (hp : (s.line l).phase = some .settle) :
    s.asyncReport l r = s.setLine l ((s.line l).receptionOver.countLate.restartQuiet s.nowUs) := by
  unfold State.asyncReport
  dsimp only
  rw [State.receptionOver_eq, State.line_setLine_same, if_neg (show (s.line l).receptionOver.run ≠ _ from h),
    show (s.line l).receptionOver.phase = _ from hp]
  exact State.modLine_setLine _ _ _ _

theorem State.asyncReport_sending (hp : (s.line l).phase = some .sending) :
    s.asyncReport l r = s.setLine l ((s.line l).receptionOver.takeEcho r) := by
  unfold State.asyncReport
  dsimp only
  rw [State.receptionOver_eq, State.line_setLine_same, if_neg (show (s.line l).receptionOver.run ≠ _ from h),
    show (s.line l).receptionOver.phase = _ from hp]
  exact State.modLine_setLine _ _ _ _

theorem State.asyncReport_lead (hp : (s.line l).phase = some .lead) :
    s.asyncReport l r = (s.setLine l (s.line l).receptionOver).failAttempt l .conflict := by
  unfold State.asyncReport
  dsimp only
  rw [State.receptionOver_eq, State.line_setLine_same, if_neg (show (s.line l).receptionOver.run ≠ _ from h),
    show (s.line l).receptionOver.phase = _ from hp]

theorem State.asyncReport_awaiting (hp : (s.line l).phase = some .awaiting) {a : Attempt} (ha : (s.line l).attempt = some a) :
    s.asyncReport l r = (s.setLine l (s.line l).receptionOver).awaitCharacter l a r := by
  unfold State.asyncReport
  dsimp only
  rw [State.receptionOver_eq, State.line_setLine_same, if_neg (show (s.line l).receptionOver.run ≠ _ from h),
    show (s.line l).receptionOver.phase = _ from hp]
  dsimp only
  rw [show (s.line l).receptionOver.attempt = _ from ha]

theorem State.asyncReport_receiving (hp : (s.line l).phase = some .receiving) {a : Attempt} (ha : (s.line l).attempt = some a) :
    s.asyncReport l r = (s.setLine l (s.line l).receptionOver).receiveCharacter l a r := by
  unfold State.asyncReport
  dsimp only
  rw [State.receptionOver_eq, State.line_setLine_same, if_neg (show (s.line l).receptionOver.run ≠ _ from h),
    show (s.line l).receptionOver.phase = _ from hp]
  dsimp only
  rw [show (s.line l).receptionOver.attempt = _ from ha]

end InService

/-! ## The response (R79, R80) -/

theorem State.awaitCharacter_stray {s : State} {l : LineId} {r : Report} (a : Attempt) (hf : r.framingError = false) (hm : r.mark = false)
    (ht : (s.line l).timeoutHeld = false) : s.awaitCharacter l a r = s.modLine l Line.countStray := by
  have htimeout : ¬ ((s.modLine l Line.countStray).line l).timeoutHeld = true := by
    rw [State.line_modLine_same]
    exact ht.trans_ne Bool.false_ne_true
  unfold State.awaitCharacter
  rw [hf, hm]
  exact if_neg htimeout

theorem State.awaitCharacter_found {s : State} {l : LineId} {r : Report} {a : Attempt} (hf : r.framingError = false) (hm : r.mark = true)
    (hp : r.parityError = false) (hv : r.value = responseAddr a.addr) :
    s.awaitCharacter l a r = s.modLine l (Line.enterReceiving s.nowUs r.value) := by
  unfold State.awaitCharacter
  rw [hf, hm, hp]
  exact if_pos hv

theorem State.receiveCharacter_good {s : State} {l : LineId} {r : Report} (a : Attempt) (hf : r.framingError = false)
    (hp : r.parityError = false) (hm : r.mark = false) : s.receiveCharacter l a r = s.storeCharacter l a r.value := by
  unfold State.receiveCharacter
  rw [hf, hp, hm]
  rfl

/-- A character that does not complete the frame is stored, and on an async line the gap timer starts again (R80). -/
theorem State.storeCharacter_more {s : State} {l : LineId} (a : Attempt) {v : Byte} {rx : RxRecord} (h : (s.line l).rx.store v = .more rx) :
    s.storeCharacter l a v = s.modLine l fun x =>
      { x with rx := rx, timers := { x.timers with gap := if x.isAsync then some s.nowUs else none } } := by
  unfold State.storeCharacter
  rw [h]

theorem RxRecord.store_ctrl {r : RxRecord} (v : Byte) (h : r.ctrl = none) : r.store v = .more { r with ctrl := some v } := by
  unfold RxRecord.store
  split
  · rfl
  · next hc => simp [h] at hc

theorem RxRecord.store_len {r : RxRecord} {v : Byte} (hc : r.ctrl ≠ none) (hl : r.len = none) (hv : v.toNat ≤ 64) :
    r.store v = .more { r with len := some v } := by
  obtain ⟨c, hc⟩ := Option.ne_none_iff_exists'.mp hc
  unfold RxRecord.store
  simp [hc, hl, hv]

theorem RxRecord.store_payload {r : RxRecord} {n : Byte} (v : Byte) (hc : r.ctrl ≠ none) (hl : r.len = some n)
    (hn : r.payload.length < n.toNat) : r.store v = .more { r with payload := r.payload ++ [v] } := by
  obtain ⟨c, hc⟩ := Option.ne_none_iff_exists'.mp hc
  unfold RxRecord.store
  simp [hc, hl, hn]

theorem RxRecord.store_check {r : RxRecord} {n : Byte} (v : Byte) (hc : r.ctrl ≠ none) (hl : r.len = some n)
    (hn : n.toNat ≤ r.payload.length) (hk : r.check = []) : r.store v = .more { r with check := [v] } := by
  obtain ⟨c, hc⟩ := Option.ne_none_iff_exists'.mp hc
  unfold RxRecord.store
  simp [hc, hl, hn, hk]

/-! ## The echo (R76) -/

theorem echoAgrees_iff {a : Attempt} {k : Nat} {r : Report} : echoAgrees a k r = true ↔
    r.value = byteAt a.frame k ∧ (r.mark = true ↔ k = 0) ∧ r.parityError = false ∧ r.framingError = false := by
  simp only [echoAgrees, frameMark, Bool.and_eq_true, beq_iff_eq, Bool.not_eq_true', and_assoc]
  rw [Bool.eq_iff_iff, beq_iff_eq]

theorem Line.takeEcho_eq {x : Line} {a : Attempt} {r : Report} (ha : x.attempt = some a) (hc : x.conflict = false) :
    x.takeEcho r = if x.echoes ≤ x.sentPos ∧ echoAgrees a x.echoes r = true then { x with echoes := x.echoes + 1 }
      else { x with conflict := true } := by
  unfold Line.takeEcho
  rw [ha]
  dsimp only
  rw [if_neg (by simp [hc])]
  simp

/-! ## A character received on an async line -/

theorem Line.countStray_eq (x : Line) :
    x.countStray = { x with counters := { x.counters with stray := min 4294967295 (x.counters.stray + 1) } } := by
  rw [Line.countStray, satSucc_eq_min]

theorem Line.countLate_eq (x : Line) :
    x.countLate = { x with counters := { x.counters with late := min 4294967295 (x.counters.late + 1) } } := by
  rw [Line.countLate, satSucc_eq_min]

/-- The quiet timers of a line with no character in reception. -/
theorem Line.restartQuiet_eq {x : Line} (h : x.inReception = false) (now : Nat) : x.restartQuiet now = { x with timers := { x.timers with
    settle := if x.pins.rxd = .mark ∧ x.phase = some .settle then some now else x.timers.settle
    startQuiet := if x.pins.rxd = .mark ∧ x.run = .starting then some now else x.timers.startQuiet } } := by
  have hquiet : x.quietNow = true ↔ x.pins.rxd = .mark := by simp [Line.quietNow, h]
  unfold Line.restartQuiet
  by_cases hm : x.pins.rxd = .mark
  · rw [if_pos (hquiet.mpr hm)]
    simp only [hm, true_and]
  · rw [if_neg (mt hquiet.mp hm)]
    simp only [hm, false_and, if_false]

theorem Line.restartQuiet_starting {x : Line} (h : x.inReception = false) (hr : x.run = .starting) (hp : x.phase = none) (now : Nat) :
    x.restartQuiet now = { x with timers := { x.timers with
      startQuiet := if x.pins.rxd = .mark then some now else x.timers.startQuiet } } := by
  rw [Line.restartQuiet_eq h]
  simp only [hr, hp, and_true, reduceCtorEq, and_false, if_false]

theorem Line.restartQuiet_settle {x : Line} (h : x.inReception = false) (hr : x.run ≠ .starting) (hp : x.phase = some .settle)
    (now : Nat) : x.restartQuiet now = { x with timers := { x.timers with
      settle := if x.pins.rxd = .mark then some now else x.timers.settle } } := by
  rw [Line.restartQuiet_eq h]
  simp only [hr, hp, and_true, and_false, if_false]

theorem Line.enterSettle_async {x : Line} {g : LineConfig} (hg : x.config = some g) (hm : g.mode = .async) (h : x.inReception = false)
    (now : Nat) : x.enterSettle now = { x with
      phase := some .settle, conflict := false, timeoutHeld := false, pins := ⟨false, false, false, [], x.pins.rxd⟩
      timers := { x.timers with
        lead := none, response := none, gap := none, settle := if x.pins.rxd = .mark then some now else none
        settleLimit := some now } } := by
  have hclocked : x.isClocked = false := by simp [Line.isClocked_of_config hg, hm]
  have hquiet : (x.isClocked || x.quietNow) = true ↔ x.pins.rxd = .mark := by simp [Line.quietNow, h, hclocked]
  unfold Line.enterSettle
  rw [Line.isAsync_of_mode hg hm]
  simp only [hquiet, if_true]
  rfl

/-- In STARTING. -/
theorem asyncCharacter_starting {s : State} {l : LineId} (r : Report) (h : (s.line l).run = .starting) (hp : (s.line l).phase = none) :
    let x := (s.line l).receptionOver
    s.asyncReport l r = s.setLine l { x with
      counters := { x.counters with stray := min 4294967295 (x.counters.stray + 1) }
      timers := { x.timers with startQuiet := if x.pins.rxd = .mark then some s.nowUs else x.timers.startQuiet } } := by
  intro x
  rw [State.asyncReport_starting h, Line.restartQuiet_starting (x := (s.line l).receptionOver.countStray) rfl h hp, Line.countStray_eq]

/-- In IDLE and SETTLE. -/
theorem asyncCharacter_idle {s : State} {l : LineId} {g : LineConfig} (r : Report) (hg : (s.line l).config = some g) (hm : g.mode = .async)
    (h : (s.line l).run ≠ .starting) (hp : (s.line l).phase = some .idle) :
    let x := (s.line l).receptionOver
    s.asyncReport l r = s.setLine l { x with
      counters := { x.counters with stray := min 4294967295 (x.counters.stray + 1) }
      phase := some .settle, conflict := false, timeoutHeld := false, pins := ⟨false, false, false, [], x.pins.rxd⟩
      timers := { x.timers with
        lead := none, response := none, gap := none, settle := if x.pins.rxd = .mark then some s.nowUs else none
        settleLimit := some s.nowUs } } := by
  intro x
  rw [State.asyncReport_idle r h hp, Line.enterSettle_async (x := (s.line l).receptionOver.countStray) hg hm rfl, Line.countStray_eq]

theorem asyncCharacter_settle {s : State} {l : LineId} (r : Report) (h : (s.line l).run ≠ .starting)
    (hp : (s.line l).phase = some .settle) :
    let x := (s.line l).receptionOver
    s.asyncReport l r = s.setLine l { x with
      counters := { x.counters with late := min 4294967295 (x.counters.late + 1) }
      timers := { x.timers with settle := if x.pins.rxd = .mark then some s.nowUs else x.timers.settle } } := by
  intro x
  rw [State.asyncReport_settle r h hp, Line.restartQuiet_settle (x := (s.line l).receptionOver.countLate) rfl h hp, Line.countLate_eq]

/-- In RECEIVING, where the character does not complete the frame. -/
theorem asyncCharacter_receiving {s : State} {l : LineId} {g : LineConfig} {a : Attempt} {r : Report} {rx : RxRecord}
    (hg : (s.line l).config = some g) (hm : g.mode = .async) (h : (s.line l).run ≠ .starting) (hp : (s.line l).phase = some .receiving)
    (ha : (s.line l).attempt = some a) (hf : r.framingError = false) (hpar : r.parityError = false) (hmark : r.mark = false)
    (hstore : (s.line l).rx.store r.value = .more rx) :
    let x := (s.line l).receptionOver
    s.asyncReport l r = s.setLine l { x with rx := rx, timers := { x.timers with gap := some s.nowUs } } := by
  intro x
  have hrx : ((s.setLine l (s.line l).receptionOver).line l).rx.store r.value = .more rx := by rw [State.line_setLine_same]; exact hstore
  rw [State.asyncReport_receiving r h hp ha, State.receiveCharacter_good a hf hpar hmark, State.storeCharacter_more a hrx,
    State.modLine_setLine]
  have hasync : (s.line l).receptionOver.isAsync = true := Line.isAsync_of_mode (x := (s.line l).receptionOver) hg hm
  rw [hasync]
  rfl

/-- Settles O39. -/
theorem asyncCharacterGoesOn : Obligations.AsyncCharacterGoesOn := by
  intro s l raw g hg hw hm x r now atMark goes stray
  have hleads : ∀ y, ((s.line l).run = .starting ∨ (s.line l).run = .running ∨ (s.line l).run = .stopping) →
      s.asyncReport l r = s.setLine l y → goes y := fun y hrun hy =>
    leads_of_eq rfl ((State.characterArrives_async hg hw hm hrun raw).trans hy)
  refine ⟨fun hr hp => hleads _ (.inl hr) (asyncCharacter_starting r hr hp), fun hr => ?_⟩
  have hne : (s.line l).run ≠ .starting := fun e => by
    change (s.line l).run = _ ∨ (s.line l).run = _ at hr
    rw [e] at hr
    simp at hr
  have hgoes := fun y hy => hleads y (.inr hr) hy
  refine ⟨fun hp => hgoes _ (asyncCharacter_idle r hg hm hne hp), fun hp => hgoes _ (asyncCharacter_settle r hne hp),
    ?_, fun a ha hp hf => ⟨fun hmark ht => hgoes _ ?_, fun hmark hpar hv => hgoes _ ?_⟩, ?_⟩
  · intro a ha hp hc agrees
    have hecho : agrees ↔ x.echoes ≤ x.sentPos ∧ echoAgrees a x.echoes r = true := by rw [echoAgrees_iff]
    have heff := (State.asyncReport_sending r hne hp).trans (congrArg (s.setLine l)
      (Line.takeEcho_eq (x := (s.line l).receptionOver) (r := r) ha hc))
    exact ⟨fun hag => hgoes _ (heff.trans (congrArg (s.setLine l) (if_pos (hecho.mp hag)))),
      fun hag => hgoes _ (heff.trans (congrArg (s.setLine l) (if_neg (mt hecho.mpr hag))))⟩
  · rw [State.asyncReport_awaiting r hne hp ha, State.awaitCharacter_stray a hf hmark (by rw [State.line_setLine_same]; exact ht),
      State.modLine_setLine, Line.countStray_eq]
    rfl
  · rw [State.asyncReport_awaiting r hne hp ha, State.awaitCharacter_found hf hmark hpar hv, State.modLine_setLine]
    have hasync : (s.line l).receptionOver.isAsync = true := Line.isAsync_of_mode (x := (s.line l).receptionOver) hg hm
    rw [Line.enterReceiving, hasync]
    rfl
  · intro a ha hp hf hpar hmark goesOn
    have hmore : ∀ rx, (s.line l).rx.store r.value = .more rx → goesOn rx := fun rx h =>
      hgoes _ (asyncCharacter_receiving hg hm hne hp ha hf hpar hmark h)
    exact ⟨fun hc => hmore _ (RxRecord.store_ctrl _ hc), fun hc hl hv => hmore _ (RxRecord.store_len hc hl hv),
      fun n hn hc => ⟨fun hlt => hmore _ (RxRecord.store_payload _ hc hn hlt), fun hle hk => hmore _ (RxRecord.store_check _ hc hn hle hk)⟩⟩

/-! ## A character received on a clocked line (R5, R7, R85) -/

section Clocked

variable {s : State} {l : LineId} {g : LineConfig} {a : Attempt} {v : Byte}

theorem State.clockedCharacter_outside (ha : (s.line l).phase ≠ some .awaiting) (hr : (s.line l).phase ≠ some .receiving) :
    s.clockedCharacter l g v = s := by
  unfold State.clockedCharacter
  dsimp only
  split
  · next h _ => exact absurd h ha
  · next h _ => exact absurd h hr
  · rfl

theorem State.clockedCharacter_awaiting (hp : (s.line l).phase = some .awaiting) (ha : (s.line l).attempt = some a)
    (hf : (s.line l).fillers < g.respTimeout) : s.clockedCharacter l g v =
      if v = 0xFF then s.modLine l fun y => { y with fillers := y.fillers + 1 }
      else if v = responseAddr a.addr then s.modLine l (Line.enterReceiving s.nowUs v) else s.failAttempt l .protocol := by
  unfold State.clockedCharacter
  dsimp only
  rw [hp, ha]
  exact if_neg (not_le.mpr hf)

theorem State.clockedCharacter_receiving (hp : (s.line l).phase = some .receiving) (ha : (s.line l).attempt = some a) :
    s.clockedCharacter l g v = s.storeCharacter l a v := by
  unfold State.clockedCharacter
  dsimp only
  rw [hp, ha]

end Clocked

/-- Settles O40. -/
theorem clockedCharacterGoesOn : Obligations.ClockedCharacterGoesOn := by
  intro s l raw g hg hw hm x goes
  have hleads : ∀ y, s.clockedCharacter l g raw.data = s.setLine l y → goes y := fun y hy =>
    leads_of_eq rfl ((State.characterArrives_clocked hg hw hm raw).trans hy)
  have hasync : (s.line l).isAsync = false := by rw [Line.isAsync_of_config hg, hm]; rfl
  refine ⟨fun ha hr => hleads _ ((State.clockedCharacter_outside ha hr).trans (s.setLine_self l).symm), fun a ha =>
    ⟨fun hp hf => ⟨fun hv => hleads _ ?_, fun hv hne => hleads _ ?_⟩, ?_⟩⟩
  · exact (State.clockedCharacter_awaiting hp ha hf).trans (if_pos hv)
  · refine ((State.clockedCharacter_awaiting hp ha hf).trans (if_neg hne)).trans ((if_pos hv).trans ?_)
    rw [State.modLine, Line.enterReceiving, hasync]
    rfl
  · intro hp goesOn
    have hmore : ∀ rx, (s.line l).rx.store raw.data = .more rx → goesOn rx := fun rx h => hleads _ (by
      rw [State.clockedCharacter_receiving hp ha, State.storeCharacter_more a h, State.modLine, hasync]
      rfl)
    exact ⟨fun hc => hmore _ (RxRecord.store_ctrl _ hc), fun hc hl hv => hmore _ (RxRecord.store_len hc hl hv),
      fun n hn hc => ⟨fun hlt => hmore _ (RxRecord.store_payload _ hc hn hlt), fun hle hk => hmore _ (RxRecord.store_check _ hc hn hle hk)⟩⟩

/-! ## RXD, false starts and the held timeout (R3, R79, R83, R84) -/

section Rxd

variable {s : State} {l : LineId} {g : LineConfig}

theorem Line.receiverRuns_of {x : Line} (hg : x.config = some g) (hm : g.mode = .async)
    (hrun : x.run = .starting ∨ x.run = .running ∨ x.run = .stopping) : x.receiverRuns = true := by
  rw [Line.receiverRuns, Line.isAsync_of_mode hg hm, Line.inService_iff.mpr hrun]
  rfl

/-- The line with its RXD at a level. -/
def Line.atLevel (x : Line) (v : Level) : Line := { x with pins := { x.pins with rxd := v } }

theorem State.rxdTakes_same {v : Level} (h : (s.line l).pins.rxd = v) : s.rxdTakes l v = s := if_pos h

theorem State.rxdTakes_toSpace (hg : (s.line l).config = some g) (hm : g.mode = .async) (hw : Works s)
    (hrun : (s.line l).run = .starting ∨ (s.line l).run = .running ∨ (s.line l).run = .stopping)
    (h : (s.line l).pins.rxd = .mark) : s.rxdTakes l .space = s.setLine l (((s.line l).atLevel .space).toSpace s.nowUs) := by
  have hruns : (((s.line l).atLevel .space).receiverRuns && s.working) = true := by
    rw [Line.receiverRuns_of (x := (s.line l).atLevel .space) hg hm hrun, (works_iff s).mp hw]
    rfl
  exact (if_neg (by simp [h])).trans (congrArg (s.setLine l) (if_pos hruns))

theorem State.rxdTakes_toMark (hg : (s.line l).config = some g) (hm : g.mode = .async) (hw : Works s)
    (hrun : (s.line l).run = .starting ∨ (s.line l).run = .running ∨ (s.line l).run = .stopping)
    (h : (s.line l).pins.rxd = .space) : s.rxdTakes l .mark = s.setLine l (((s.line l).atLevel .mark).toMark s.nowUs) := by
  have hruns : (((s.line l).atLevel .mark).receiverRuns && s.working) = true := by
    rw [Line.receiverRuns_of (x := (s.line l).atLevel .mark) hg hm hrun, (works_iff s).mp hw]
    rfl
  exact (if_neg (by simp [h])).trans (congrArg (s.setLine l) (if_pos hruns))

/-- RXD back at mark: the quiet timers start where no character is in reception (R65, R83, R84). -/
theorem Line.toMark_eq (x : Line) (now : Nat) : (x.atLevel .mark).toMark now = { x with
    pins := { x.pins with rxd := .mark }
    timers := { x.timers with
      stuck := none
      settle := if x.inReception = false ∧ x.phase = some .settle then some now else x.timers.settle
      startQuiet := if x.inReception = false ∧ x.run = .starting then some now else x.timers.startQuiet } } := by
  unfold Line.toMark
  cases hr : x.inReception with
  | false =>
    rw [Line.restartQuiet_eq (x := { x.atLevel .mark with timers := _ }) hr]
    simp only [Line.atLevel, true_and, hr]
  | true =>
    have hquiet : ¬ ({ x.atLevel .mark with timers := { (x.atLevel .mark).timers with stuck := none } } : Line).quietNow = true := by
      simp [Line.quietNow, Line.atLevel, hr]
    exact (if_neg hquiet).trans (by simp [Line.atLevel, hr])

theorem State.falseStartTaken_plain (hg : (s.line l).config = some g) (hm : g.mode = .async) (hw : Works s)
    (hrun : (s.line l).run = .starting ∨ (s.line l).run = .running ∨ (s.line l).run = .stopping)
    (hin : (s.line l).inReception = true) (hheld : (s.line l).timeoutHeld = false) :
    s.falseStartTaken l = s.setLine l ((s.line l).receptionOver.restartQuiet s.nowUs) := by
  have hruns : (s.working && (s.line l).receiverRuns && (s.line l).inReception) = true := by
    rw [Line.receiverRuns_of hg hm hrun, (works_iff s).mp hw, hin]
    rfl
  have hnone : ¬ (((s.setLine l ((s.line l).receptionOver.restartQuiet s.nowUs)).line l).phase = some .awaiting
      ∧ ((s.setLine l ((s.line l).receptionOver.restartQuiet s.nowUs)).line l).timeoutHeld = true) := by
    rw [State.line_setLine_same, Line.restartQuiet_eq rfl]
    exact fun h => Bool.false_ne_true (hheld.symm.trans h.2)
  exact (if_pos hruns).trans (if_neg hnone)

/-- The response timeout of an async line is held while a character is in reception. -/
theorem State.responseExpires_async {t : Nat} (hg : (s.line l).config = some g) (hm : g.mode = .async) (hw : Works s)
    (hp : (s.line l).phase = some .awaiting) (ht : (s.line l).timers.response = some t) :
    s.responseExpires l = if (s.line l).inReception = true then
        (reached s (t + charTimes g g.respTimeout)).modLine l fun y =>
          { y with timeoutHeld := true, timers := { y.timers with response := none } }
      else (reached s (t + charTimes g g.respTimeout)).failAttempt l .timeout := by
  unfold State.responseExpires
  dsimp only
  rw [if_pos ⟨(works_iff s).mp hw, hp⟩, hg]
  dsimp only
  rw [hm]
  dsimp only
  rw [ht, charTimes_eq]
  rfl

end Rxd

/-- Settles O41. -/
theorem receiverEventsOfRxd : Obligations.ReceiverEventsOfRxd := by
  refine ⟨?_, fun s l g hg hw hm hrun hin hheld => leads_of_eq rfl ?_,
    fun s l g hg t ht hw hp hm hin => leads_of_eq rfl ((State.responseExpires_async hg hm hw hp ht).trans (if_pos hin))⟩
  · intro s l g hg hw hm hrun x now goes
    refine ⟨leads_of_eq rfl ((State.rxdTakes_same rfl).trans (s.setLine_self l).symm), fun h => leads_of_eq rfl ?_,
      fun h => leads_of_eq rfl ?_⟩
    · exact State.rxdTakes_toSpace hg hm hw hrun h
    · exact (State.rxdTakes_toMark hg hm hw hrun h).trans (congrArg (s.setLine l) (Line.toMark_eq _ _))
  · exact (State.falseStartTaken_plain hg hm hw hrun hin hheld).trans (congrArg (s.setLine l) (Line.restartQuiet_eq rfl _))

end Sys2Proof.Machine

/-! # One line and one of its entries (chapters 2, 3 and 6)

The end of an attempt works on the line and on the entry of its station; the state with these two put in place, and what each station operation
makes of the two. -/

namespace Sys2Proof.Machine

open Sys2Proof.Claims

/-- The state with line `l` and entry `e` put in place. -/
def State.focus (s : State) (l : LineId) (e : EntryId) (y : Line) (z : Option Station) : State := (s.setLine l y).setStation e z

section Parts

variable (s : State) (l : LineId) (e : EntryId) (y : Line) (z : Option Station)

@[simp] theorem State.line_focus_same : (s.focus l e y z).line l = y := State.line_setLine_same s l y

@[simp] theorem State.station_focus_same : (s.focus l e y z).station e = z := State.station_setStation_same _ _ _

theorem State.line_focus_ne {k : LineId} (hk : k ≠ l) : (s.focus l e y z).line k = s.line k := State.line_setLine_ne _ _ hk

theorem State.station_focus_ne {f : EntryId} (hf : f ≠ e) : (s.focus l e y z).station f = s.station f := State.station_setStation_ne _ _ hf

theorem State.focus_setLine (y' : Line) : (s.focus l e y z).setLine l y' = s.focus l e y' z :=
  congrArg (State.setStation · e z) (State.setLine_setLine s l y y')

theorem State.focus_modLine (f : Line → Line) : (s.focus l e y z).modLine l f = s.focus l e (f y) z := by
  rw [State.modLine, State.line_focus_same, State.focus_setLine]

theorem State.focus_modSlot (i : SlotId) (f : Slot → Slot) : (s.focus l e y z).modSlot l i f = s.focus l e (y.modSlot i f) z :=
  State.focus_modLine s l e y z _

theorem State.focus_setStation (z' : Option Station) : (s.focus l e y z).setStation e z' = s.focus l e y z' :=
  State.setStation_setStation _ _ _ _

end Parts

theorem State.setStation_self {s : State} {e : EntryId} {x : Station} (hx : s.station e = some x) : s.setStation e (some x) = s := by
  have : vput s.stations e (some x) = s.stations := by rw [← hx]; exact vput_vget _ _
  unfold State.setStation
  rw [this]

theorem State.setLine_focus {s : State} {e : EntryId} {x : Station} (hx : s.station e = some x) (l : LineId) (y : Line) :
    s.setLine l y = s.focus l e y (some x) := (State.setStation_self (s := s.setLine l y) hx).symm

theorem onlyLineAndEntry_focus (s : State) (l : LineId) (e : EntryId) (y : Line) (z : Option Station) :
    OnlyLineAndEntry s (s.focus l e y z) l e :=
  ⟨rfl, fun _ hk => s.line_focus_ne l e y z hk, fun _ hf => s.station_focus_ne l e y z hf⟩

/-! ## Finding the entry -/

section Found

variable {s : State} {l : LineId} {e : EntryId} {x : Station} (hk : s.KeysOk) (hx : s.station e = some x) (hl : x.line = l)
include hk hx hl

theorem State.lookup_focus (y : Line) {z : Station} (hz : z.line = l ∧ z.addr = x.addr) :
    (s.focus l e y (some z)).lookup l x.addr = some e := by
  have hkey : ∀ f, (s.focus l e y (some z)).keyAt f = s.keyAt f := fun f => by
    unfold State.keyAt
    by_cases hf : f = e
    · subst hf
      rw [State.station_focus_same, hx, Option.map_some, Option.map_some, hz.1, hz.2, hl]
    · rw [State.station_focus_ne _ _ _ _ _ hf]
  rw [State.lookup_congr hkey, ← hl]
  exact State.lookup_of_station hk hx

theorem State.keyed_focus (y : Line) {z : Station} (hz : z.line = l ∧ z.addr = x.addr) :
    (s.focus l e y (some z)).keyed l x.addr = some z := by
  rw [State.keyed_of_lookup (State.lookup_focus hk hx hl y hz), State.station_focus_same]

theorem State.lookup_focus_none (y : Line) : (s.focus l e y none).lookup l x.addr = none := by
  rw [State.lookup_eq_none]
  intro f z hz hkey
  by_cases hf : f = e
  · subst hf
    rw [State.station_focus_same] at hz
    cases hz
  · rw [State.station_focus_ne _ _ _ _ _ hf] at hz
    have := State.lookup_of_station hk (Option.mem_def.mp hz)
    rw [hkey.1, hkey.2, ← hl, State.lookup_of_station hk hx] at this
    exact hf (Option.some.inj this).symm

theorem State.keyed_focus_none (y : Line) : (s.focus l e y none).keyed l x.addr = none :=
  State.keyed_eq_none.mpr (State.lookup_focus_none hk hx hl y)

theorem State.addrBlocked_focus (y : Line) {z : Station} (hz : z.line = l ∧ z.addr = x.addr) :
    (s.focus l e y (some z)).addrBlocked l x.addr = z.blocked := by
  rw [State.addrBlocked, State.keyed_focus hk hx hl y hz]

end Found

/-! ## The station operations -/

/-- The line with an entry's notice queued. -/
def Line.queueNotice (y : Line) (e : EntryId) : Line := { y with noticeQueue := queueAppend y.noticeQueue e }

/-- The line with an entry taken out of its notice queue. -/
def Line.unqueued (y : Line) (e : EntryId) : Line := { y with noticeQueue := y.noticeQueue.filter (· ≠ e) }

/-- The entry after a change of state. -/
def Station.changed (z : Station) (st : StationState) : Station :=
  { z with state := st, noticePending := true, changes := satSucc 255 z.changes }

section Operations

variable (s : State) (e : EntryId) (y : Line) (z : Station)

theorem State.changeState_focus (st : StationState) : (s.focus z.line e y (some z)).changeState e st =
    s.focus z.line e (y.queueNotice e) (some (z.changed st)) := by
  rw [State.changeState, State.station_focus_same]
  dsimp only
  rw [State.focus_setStation, State.focus_modLine]
  rfl

theorem State.freeEntry_focus : (s.focus z.line e y (some z)).freeEntry e = s.focus z.line e (y.unqueued e) none := by
  rw [State.freeEntry, State.station_focus_same]
  dsimp only
  rw [State.focus_setStation, State.focus_modLine]
  rfl

theorem State.modStation_focus (f : Station → Station) : (s.focus z.line e y (some z)).modStation e f =
    s.focus z.line e y (some (f z)) := by
  rw [State.modStation, State.station_focus_same, State.focus_setStation]
  rfl

/-- The entry moved to OFFLINE, due at `due` (R25). -/
def Station.offlineAt (z : Station) (due : Nat) : Station := Station.changed { z with
  syncNeeded := true, redelivery := false, losses := if z.redelivery then satSucc 65535 z.losses else z.losses, nextDue := due } .offline

/-- What the move of the station to OFFLINE makes of a slot of its line (R25). -/
def Station.offlineSlot (z : Station) (a : Slot) : Slot := if a.addr = z.addr then a.stationOffline z.holdUntil.isSome else a

theorem State.moveOffline_focus {g : LineConfig} (hg : y.config = some g) : (s.focus z.line e y (some z)).moveOffline e =
    s.focus z.line e ((y.queueNotice e).mapSlots z.offlineSlot) (some (z.offlineAt (s.nowMs + g.probeInterval))) := by
  have hprobe : (s.focus z.line e y (some z)).probeOf z = g.probeInterval := by
    rw [State.probeOf, State.configOf, State.line_focus_same, hg]
  rw [State.moveOffline, State.station_focus_same]
  dsimp only
  rw [hprobe, State.focus_setStation]
  have hchange := s.changeState_focus e y { z with
    syncNeeded := true, redelivery := false, losses := if z.redelivery then satSucc 65535 z.losses else z.losses
    nextDue := s.nowMs + g.probeInterval } .offline
  refine (congrArg (fun t : State => t.modLine z.line fun ln => ln.mapSlots z.offlineSlot) hchange).trans ?_
  rw [State.focus_modLine]
  rfl

/-- The entry after failure accounting, its state apart (R24). -/
def Station.failed (z : Station) (c : Cause) : Station := { z with
  failureCount := satSucc Config.failureCountMax z.failureCount, failures := satSucc 65535 z.failures
  syncNeeded := if c = .toggle then true else z.syncNeeded }

theorem State.failureAccounting_focus {g : LineConfig} (hg : y.config = some g) (c : Cause) :
    let move := failureMove g z.state (satSucc Config.failureCountMax z.failureCount)
    (move = none → (s.focus z.line e y (some z)).failureAccounting e c = s.focus z.line e y (some (z.failed c)))
    ∧ (move = some .offline → (s.focus z.line e y (some z)).failureAccounting e c =
        s.focus z.line e ((y.queueNotice e).mapSlots z.offlineSlot) (some ((z.failed c).offlineAt (s.nowMs + g.probeInterval))))
    ∧ ∀ st, move = some st → st ≠ .offline → (s.focus z.line e y (some z)).failureAccounting e c =
        s.focus z.line e (y.queueNotice e) (some ((z.failed c).changed st)) := by
  intro move
  have hset : ((s.focus z.line e y (some z)).setStation e (some (z.failed c))) = s.focus (z.failed c).line e y (some (z.failed c)) :=
    State.focus_setStation _ _ _ _ _ _
  have hconfig : (((s.focus z.line e y (some z)).setStation e (some (z.failed c))).configOf z).bind
      (fun c => failureMove c z.state (satSucc Config.failureCountMax z.failureCount)) = move := by
    rw [hset, State.configOf, show (z.failed c).line = z.line from rfl, State.line_focus_same, hg]
    exact Option.bind_some _ _
  rw [State.failureAccounting, State.station_focus_same]
  dsimp only
  split
  · next h =>
    have hm : move = none := hconfig.symm.trans h
    rw [hm]
    exact ⟨fun _ => hset, nofun, nofun⟩
  · next h =>
    have hm : move = some .offline := hconfig.symm.trans h
    rw [hm]
    exact ⟨nofun, fun _ => (congrArg (State.moveOffline · e) hset).trans (State.moveOffline_focus s e y (z.failed c) hg),
      fun st hst hne => absurd (Option.some.inj hst).symm hne⟩
  · next st hne h =>
    have hm : move = some st := hconfig.symm.trans h
    rw [hm]
    refine ⟨nofun, fun hst => absurd (Option.some.inj hst) hne, fun st' hst _ => ?_⟩
    obtain rfl := Option.some.inj hst
    exact (congrArg (State.changeState · e st) hset).trans (State.changeState_focus s e y (z.failed c) st)

theorem State.scheduleNext_focus {l : LineId} (hz : z.line = l) {g : LineConfig} (hg : y.config = some g) :
    (s.focus l e y (some z)).scheduleNext e = s.focus l e y (some { z with nextDue := s.nowMs + if z.state = .offline then g.probeInterval else z.scanPeriod }) := by
  have hprobe : (s.focus l e y (some z)).probeOf z = g.probeInterval := by
    rw [State.probeOf, State.configOf, hz, State.line_focus_same, hg]
  rw [State.scheduleNext, State.station_focus_same]
  dsimp only
  rw [hprobe, State.focus_setStation]
  rfl

end Operations

/-! ## The station operations that reach the slots -/

/-- The line with the READY slots of the station deferred, or ended by a graceful stop (R49). -/
def Line.deferFor (y : Line) (z : Station) : Line :=
  y.mapSlots fun b => if b.state = .ready ∧ b.addr = z.addr then b.enterReady y.gracefulStop (some z) else b

/-- The line with the DEFERRED slots of the station back in READY (R49). -/
def Line.releaseFor (y : Line) (z : Station) : Line :=
  y.mapSlots fun b => if b.state = .deferred ∧ b.addr = z.addr then { b with state := .ready } else b

/-- The entry after a BUSY response, held off until `t` (R27). -/
def Station.busyUntil (z : Station) (t : Nat) : Station :=
  { z with holdUntil := some t, busy := satSucc 65535 z.busy, nextDue := t, lastKind := some .busy }

/-- The entry after a DATA response that found no pool entry (R29). -/
def Station.redeliverAt (z : Station) (now : Nat) : Station :=
  { z with redelivery := true, redeliveries := satSucc 65535 z.redeliveries, nextDue := now, lastKind := some .data }

/-- The entry after a delivered response, its state and redelivery apart (R21 to R23, R108). -/
def Station.answered (z : Station) (toggle sync : Bool) (now : Nat) : Station := { z with
  toggle := !toggle, syncNeeded := if sync then false else z.syncNeeded, failureCount := 0
  nextDue := if z.state = .offline then now + z.scanPeriod else z.nextDue }

/-- The entry with its redelivery cleared (R30). -/
def Station.redelivered (z : Station) (sync : Bool) : Station :=
  { z with redelivery := false, losses := if sync then satSucc 65535 z.losses else z.losses }

/-- The entry in ONLINE. -/
def Station.online (z : Station) : Station := if z.state = .online then z else z.changed .online

/-- The line once a delivered response has moved the entry to ONLINE. -/
def Line.online (y : Line) (e : EntryId) (z : Station) : Line := if z.state = .online then y else y.queueNotice e

/-- The entry after a delivered response. -/
def Station.delivered (z : Station) (toggle sync : Bool) (now : Nat) : Station :=
  if z.redelivery = true then (z.answered toggle sync now).online.redelivered sync else (z.answered toggle sync now).online

/-- The line after a delivered response of the entry's station. -/
def Line.delivered (y : Line) (e : EntryId) (z : Station) : Line :=
  if z.redelivery = true ∧ z.holdUntil = none then (y.online e z).releaseFor z else y.online e z

section Reaching

variable {s : State} {l : LineId} {e : EntryId} {x z : Station} (hk : s.KeysOk) (hx : s.station e = some x) (hl : x.line = l)
  (hz : z.line = l ∧ z.addr = x.addr) (y : Line)
include hk hx hl hz

theorem State.deferReady_focus : (s.focus l e y (some z)).deferReady l x.addr = s.focus l e (y.deferFor z) (some z) := by
  rw [State.deferReady, State.keyed_focus hk hx hl y hz, State.focus_modLine, ← hz.2]
  rfl

theorem State.stationBusy_focus {g : LineConfig} (hg : y.config = some g) : (s.focus l e y (some z)).stationBusy e =
    s.focus l e (y.deferFor (z.busyUntil (s.nowMs + g.busyHoldOff))) (some (z.busyUntil (s.nowMs + g.busyHoldOff))) := by
  have hhold : (s.focus l e y (some z)).holdOffOf z = g.busyHoldOff := by
    rw [State.holdOffOf, State.configOf, hz.1, State.line_focus_same, hg]
  rw [State.stationBusy, State.station_focus_same]
  dsimp only
  rw [hhold, State.focus_setStation]
  exact (congrArg₂ (State.deferReady (s.focus l e y (some (z.busyUntil (s.nowMs + g.busyHoldOff))))) hz.1 hz.2).trans
    (State.deferReady_focus (z := z.busyUntil (s.nowMs + g.busyHoldOff)) hk hx hl hz y)

theorem State.stationRedelivery_focus : (s.focus l e y (some z)).stationRedelivery e =
    s.focus l e (y.deferFor (z.redeliverAt s.nowMs)) (some (z.redeliverAt s.nowMs)) := by
  rw [State.stationRedelivery, State.station_focus_same]
  dsimp only
  rw [State.focus_setStation]
  exact (congrArg₂ (State.deferReady (s.focus l e y (some (z.redeliverAt s.nowMs)))) hz.1 hz.2).trans
    (State.deferReady_focus (z := z.redeliverAt s.nowMs) hk hx hl hz y)

theorem State.releaseDeferred_focus : (s.focus l e y (some z)).releaseDeferred l x.addr =
    s.focus l e (if z.blocked = true then y else y.releaseFor z) (some z) := by
  rw [State.releaseDeferred, State.addrBlocked_focus hk hx hl y hz]
  split
  · rfl
  · rw [State.focus_modLine, ← hz.2]
    rfl

theorem State.clearRedelivery_focus (sync : Bool) : (s.focus l e y (some z)).clearRedelivery e sync =
    s.focus l e (if z.redelivery = true ∧ z.holdUntil = none then y.releaseFor z else y)
      (some (if z.redelivery = true then z.redelivered sync else z)) := by
  rw [State.clearRedelivery, State.station_focus_same]
  dsimp only
  by_cases hr : z.redelivery = true
  · have hblocked : (z.redelivered sync).blocked = z.holdUntil.isSome := by simp [Station.blocked, Station.redelivered]
    rw [if_pos hr, if_pos hr, State.focus_setStation]
    refine ((congrArg₂ (State.releaseDeferred (s.focus l e y (some (z.redelivered sync)))) hz.1 hz.2).trans
      (State.releaseDeferred_focus (z := z.redelivered sync) hk hx hl hz y)).trans ?_
    rw [hblocked]
    cases hh : z.holdUntil with
    | none => rw [if_neg (by simp), if_pos ⟨hr, rfl⟩]; rfl
    | some t => rw [if_pos (show (some t).isSome = true from rfl), if_neg (fun h => nomatch h.2)]
  · rw [if_neg hr, if_neg hr, if_neg (fun h => hr h.1)]

theorem State.stationDelivered_focus (toggle sync : Bool) : (s.focus l e y (some z)).stationDelivered e toggle sync =
    s.focus l e (y.delivered e z) (some (z.delivered toggle sync s.nowMs)) := by
  have honline : (if z.state = .online then s.focus l e y (some (z.answered toggle sync s.nowMs))
      else (s.focus l e y (some (z.answered toggle sync s.nowMs))).changeState e .online) =
        s.focus l e (y.online e z) (some (z.answered toggle sync s.nowMs).online) := by
    unfold Line.online Station.online
    by_cases ho : z.state = .online
    · rw [if_pos ho, if_pos ho, if_pos (show (z.answered toggle sync s.nowMs).state = .online from ho)]
    · rw [if_neg ho, if_neg ho, if_neg (show (z.answered toggle sync s.nowMs).state ≠ .online from ho), ← hz.1]
      exact State.changeState_focus s e y (z.answered toggle sync s.nowMs) .online
  rw [State.stationDelivered, State.station_focus_same]
  dsimp only
  rw [State.focus_setStation]
  refine (congrArg (State.clearRedelivery · e sync) honline).trans ?_
  have hparts : ∀ w : Station, (w = z.answered toggle sync s.nowMs ∨ w = (z.answered toggle sync s.nowMs).changed .online) →
      (s.focus l e (y.online e z) (some w)).clearRedelivery e sync =
        s.focus l e (y.delivered e z) (some (if z.redelivery = true then w.redelivered sync else w)) := fun w hw => by
    have hkey : (w.line = l ∧ w.addr = x.addr) ∧ w.redelivery = z.redelivery ∧ w.holdUntil = z.holdUntil ∧ w.addr = z.addr := by
      rcases hw with rfl | rfl
      · exact ⟨hz, rfl, rfl, rfl⟩
      · exact ⟨hz, rfl, rfl, rfl⟩
    obtain ⟨hkey, hred, hhold, haddr⟩ := hkey
    have hrelease : (y.online e z).releaseFor w = (y.online e z).releaseFor z := by rw [Line.releaseFor, Line.releaseFor, haddr]
    rw [State.clearRedelivery_focus hk hx hl hkey, hred, hhold, hrelease]
    rfl
  refine (hparts _ ?_).trans rfl
  unfold Station.online
  split
  · exact .inl rfl
  · exact .inr rfl

end Reaching

end Sys2Proof.Machine

/-! # The events that end an attempt (chapter 4) -/

namespace Sys2Proof.Machine

open Sys2Proof.Claims

/-! ## What the line has heard -/

/-- The line with its receiver, its timers, its strays and what it is sending as given. -/
def Line.heard (x : Line) (inReception : Bool) (rx : RxRecord) (timers : Timers) (stray sentPos : Nat) (shifting : List Bool) : Line :=
  { x with
    inReception := inReception, rx := rx, timers := timers, counters := { x.counters with stray := stray }, sentPos := sentPos
    pins := { x.pins with shifting := shifting } }

/-- The line as an event that ends an exchange leaves it to the exchange's end. -/
def Line.Heard (x : Line) (stray : Nat) (y : Line) : Prop :=
  ∃ inReception rx timers sentPos shifting, timers.stuck = x.timers.stuck ∧ y = x.heard inReception rx timers stray sentPos shifting

theorem Line.Heard.refl (x : Line) : x.Heard x.counters.stray x := ⟨x.inReception, x.rx, x.timers, _, _, rfl, rfl⟩

theorem Line.Heard.over (x : Line) : x.Heard x.counters.stray x.receptionOver := ⟨false, x.rx, x.timers, _, _, rfl, rfl⟩

theorem Line.Heard.withRx {x y : Line} {n : Nat} (h : x.Heard n y) (rx : RxRecord) : x.Heard n { y with rx := rx } := by
  obtain ⟨r, _, t, p, sh, ht, rfl⟩ := h
  exact ⟨r, rx, t, p, sh, ht, rfl⟩

theorem reached_now (s : State) : reached s s.nowUs = s := by
  rw [reached, max_self, State.nowUs, BitVec.ofNat_toNat, BitVec.setWidth_eq]

/-- The event `i` ends line `l`'s attempt with an outcome at device time `due` or later. -/
def EndsWith (s : State) (l : LineId) (i : Instr) (due : Nat) (stray : Nat) (o : AttemptOutcome) (kind : Option RespKind) : Prop :=
  ∃ y, (s.line l).Heard stray y ∧ exec i s = .next (((reached s due).setLine l y).endAttempt l o kind).react

section Events

variable {s : State} {l : LineId} {g : LineConfig} {a : Attempt} (hw : Works s) (hg : (s.line l).config = some g)
  (hrun : (s.line l).run = .running ∨ (s.line l).run = .stopping) (ha : (s.line l).attempt = some a)

/-- An attempt that ends with the line as it was found. -/
theorem endsWith_line {i : Instr} {due : Nat} {o : AttemptOutcome} {kind : Option RespKind}
    (h : exec i s = .next ((reached s due).endAttempt l o kind).react) : EndsWith s l i due (s.line l).counters.stray o kind :=
  ⟨s.line l, .refl _, by
    rw [show (reached s due).setLine l (s.line l) = reached s due from (reached s due).setLine_self l]
    exact h⟩

/-- An attempt that ends at once, with the line as it is then. -/
theorem endsWith_setLine {i : Instr} {y : Line} {n : Nat} {o : AttemptOutcome} {kind : Option RespKind} (hy : (s.line l).Heard n y)
    (h : exec i s = .next ((s.setLine l y).endAttempt l o kind).react) : EndsWith s l i s.nowUs n o kind :=
  ⟨y, hy, by rw [reached_now]; exact h⟩

include hrun in
theorem run_ne_starting : (s.line l).run ≠ .starting := fun e => by simp [e] at hrun

include hg hrun hw in
theorem exec_characterReceived_async (hm : g.mode = .async) (raw : RawChar) :
    exec (.characterReceived l raw) s = .next (s.asyncReport l (reportOf g raw)).react :=
  congrArg (fun t : State => Host.Outcome.next t.react) (State.characterArrives_async hg hw hm (.inr hrun) raw)

include hg hw in
theorem exec_characterReceived_clocked (hm : g.mode ≠ .async) (raw : RawChar) :
    exec (.characterReceived l raw) s = .next (s.clockedCharacter l g raw.data).react := by
  have hclocked : g.mode = .clocked := by cases h : g.mode with
    | async => exact absurd h hm
    | clocked => rfl
  exact congrArg (fun t : State => Host.Outcome.next t.react) (State.characterArrives_clocked hg hw hclocked raw)

/-! ## Timers -/

include hw hg in
theorem endsWith_responseTimeout_async (hm : g.mode = .async) (hp : (s.line l).phase = some .awaiting)
    (hin : (s.line l).inReception = false) {t : Nat} (ht : (s.line l).timers.response = some t) :
    EndsWith s l (.responseTimeout l) (t + charTimes g g.respTimeout) (s.line l).counters.stray (.failure .timeout) none :=
  endsWith_line (congrArg (fun u : State => Host.Outcome.next u.react)
    ((State.responseExpires_async hg hm hw hp ht).trans (if_neg (by simp [hin]))))

include hw hg in
theorem endsWith_responseTimeout_clocked (hm : g.mode ≠ .async) (hp : (s.line l).phase = some .awaiting)
    (hf : g.respTimeout ≤ (s.line l).fillers) :
    EndsWith s l (.responseTimeout l) s.nowUs (s.line l).counters.stray (.failure .timeout) none := by
  have heff : s.responseExpires l = s.failAttempt l .timeout := by
    have hclocked : g.mode = .clocked := by cases h : g.mode with
      | async => exact absurd h hm
      | clocked => rfl
    unfold State.responseExpires
    dsimp only
    rw [if_pos ⟨(works_iff s).mp hw, hp⟩, hg]
    dsimp only
    rw [hclocked]
    exact if_pos hf
  refine endsWith_line ?_
  rw [reached_now]
  exact congrArg (fun u : State => Host.Outcome.next u.react) heff

include hw hg in
theorem endsWith_gapLimit (hp : (s.line l).phase = some .receiving) {t : Nat} (ht : (s.line l).timers.gap = some t) :
    EndsWith s l (.gapLimit l) (t + charTimes g g.gapLimit) (s.line l).counters.stray (.failure .truncated) none := by
  have heff : s.gapExpires l = (reached s (t + charTimes g g.gapLimit)).failAttempt l .truncated := by
    rw [State.gapExpires, Line.expiry_eq hg ht]
    exact if_pos ⟨(works_iff s).mp hw, hp⟩
  exact endsWith_line (congrArg (fun u : State => Host.Outcome.next u.react) heff)

theorem Line.Heard.restartQuiet (x : Line) (now : Nat) : x.Heard x.counters.stray (x.receptionOver.restartQuiet now) :=
  ⟨false, x.rx, (x.receptionOver.restartQuiet now).timers, _, _, by rw [Line.restartQuiet_eq rfl]; rfl, by rw [Line.restartQuiet_eq rfl]; rfl⟩

include hw hg hrun in
theorem endsWith_falseStart (hm : g.mode = .async) (hp : (s.line l).phase = some .awaiting) (hin : (s.line l).inReception = true)
    (hheld : (s.line l).timeoutHeld = true) :
    EndsWith s l (.falseStart l) s.nowUs (s.line l).counters.stray (.failure .timeout) none := by
  have hruns : (s.working && (s.line l).receiverRuns && (s.line l).inReception) = true := by
    rw [Line.receiverRuns_of hg hm (.inr hrun), (works_iff s).mp hw, hin]
    rfl
  have hfails : ((s.setLine l ((s.line l).receptionOver.restartQuiet s.nowUs)).line l).phase = some .awaiting
      ∧ ((s.setLine l ((s.line l).receptionOver.restartQuiet s.nowUs)).line l).timeoutHeld = true := by
    rw [State.line_setLine_same, Line.restartQuiet_eq rfl]
    exact ⟨hp, hheld⟩
  exact endsWith_setLine (.restartQuiet _ _) (congrArg (fun u : State => Host.Outcome.next u.react) ((if_pos hruns).trans (if_pos hfails)))

/-! ## Characters -/

include hw hg hrun ha in
/-- A character of an async line in AWAITING. -/
theorem exec_awaiting_async (hm : g.mode = .async) (hp : (s.line l).phase = some .awaiting) (raw : RawChar) :
    exec (.characterReceived l raw) s =
      .next ((s.setLine l (s.line l).receptionOver).awaitCharacter l a (reportOf g raw)).react := by
  rw [exec_characterReceived_async hw hg hrun hm, State.asyncReport_awaiting _ (run_ne_starting hrun) hp ha]

include hw hg hrun ha in
/-- A character of an async line in RECEIVING. -/
theorem exec_receiving_async (hm : g.mode = .async) (hp : (s.line l).phase = some .receiving) (raw : RawChar) :
    exec (.characterReceived l raw) s =
      .next ((s.setLine l (s.line l).receptionOver).receiveCharacter l a (reportOf g raw)).react := by
  rw [exec_characterReceived_async hw hg hrun hm, State.asyncReport_receiving _ (run_ne_starting hrun) hp ha]

theorem State.awaitCharacter_heldTimeout {s : State} {l : LineId} (a : Attempt) {r : Report} (hf : r.framingError = false)
    (hmark : r.mark = false) (ht : (s.line l).timeoutHeld = true) :
    s.awaitCharacter l a r = (s.setLine l (s.line l).countStray).failAttempt l .timeout := by
  have htimeout : ((s.modLine l Line.countStray).line l).timeoutHeld = true := by
    rw [State.line_modLine_same]
    exact ht
  unfold State.awaitCharacter
  rw [hf, hmark]
  exact if_pos htimeout

theorem State.awaitCharacter_fails {s : State} {l : LineId} {a : Attempt} {r : Report} {c : Cause}
    (h : (c = .framing ∧ r.framingError = true) ∨ (c = .parity ∧ r.framingError = false ∧ r.mark = true ∧ r.parityError = true)
      ∨ (c = .protocol ∧ r.framingError = false ∧ r.mark = true ∧ r.parityError = false ∧ r.value ≠ BitVec.ofNat 8 (128 + a.addr))) :
    s.awaitCharacter l a r = s.failAttempt l c := by
  unfold State.awaitCharacter
  rcases h with ⟨rfl, hf⟩ | ⟨rfl, hf, hmark, hpar⟩ | ⟨rfl, hf, hmark, hpar, hv⟩
  · rw [if_pos hf]
  · rw [hf, hmark, hpar]
    rfl
  · rw [hf, hmark, hpar]
    exact if_neg hv

theorem State.receiveCharacter_fails {s : State} {l : LineId} {a : Attempt} {r : Report} {c : Cause}
    (h : (c = .framing ∧ r.framingError = true) ∨ (c = .parity ∧ r.framingError = false ∧ r.parityError = true)
      ∨ (c = .protocol ∧ r.framingError = false ∧ r.parityError = false ∧ r.mark = true)) :
    s.receiveCharacter l a r = s.failAttempt l c := by
  unfold State.receiveCharacter
  rcases h with ⟨rfl, hf⟩ | ⟨rfl, hf, hpar⟩ | ⟨rfl, hf, hpar, hmark⟩
  · rw [if_pos hf]
  · rw [hf, hpar]
    rfl
  · rw [hf, hpar, hmark]
    rfl

theorem RxRecord.store_tooLong {r : RxRecord} {v : Byte} (hc : r.ctrl ≠ none) (hl : r.len = none) (hv : 64 < v.toNat) :
    r.store v = .tooLong { r with len := some v } := by
  obtain ⟨c, hc⟩ := Option.ne_none_iff_exists'.mp hc
  unfold RxRecord.store
  simp [hc, hl, hv]

theorem RxRecord.store_complete {r : RxRecord} {v w n : Byte} (hc : r.ctrl ≠ none) (hl : r.len = some n)
    (hn : n.toNat ≤ r.payload.length) (hk : r.check = [w]) : r.store v = .complete { r with check := r.check ++ [v] } := by
  obtain ⟨c, hc⟩ := Option.ne_none_iff_exists'.mp hc
  unfold RxRecord.store
  simp [hc, hl, hn, hk]

theorem State.storeCharacter_tooLong {s : State} {l : LineId} (a : Attempt) {v : Byte} (hc : (s.line l).rx.ctrl ≠ none)
    (hl : (s.line l).rx.len = none) (hv : 64 < v.toNat) :
    ∃ rx, s.storeCharacter l a v = (s.setLine l { s.line l with rx := rx }).failAttempt l .protocol := by
  refine ⟨{ (s.line l).rx with len := some v }, ?_⟩
  unfold State.storeCharacter
  rw [RxRecord.store_tooLong hc hl hv]
  rfl

theorem State.storeCharacter_complete {s : State} {l : LineId} {a : Attempt} {v : Byte} {rx : RxRecord} {o : AttemptOutcome}
    {kind : Option RespKind} (h : Completes (s.line l) v rx) (hj : judgeFrame a rx = (o, kind)) :
    s.storeCharacter l a v = (s.setLine l { s.line l with rx := rx }).endAttempt l o kind := by
  obtain ⟨_, hc, ⟨n, hl, hn⟩, ⟨w, hk⟩, rfl⟩ := h
  unfold State.storeCharacter
  rw [RxRecord.store_complete hc hl hn hk]
  dsimp only
  rw [hj]
  rfl

include hw hg hrun ha in
/-- A character of a frame without a receive error is stored in the line as it is then. -/
theorem exec_stores (raw : RawChar) (hp : (s.line l).phase = some .receiving)
    (hgood : g.mode = .async →
      (reportOf g raw).framingError = false ∧ (reportOf g raw).parityError = false ∧ (reportOf g raw).mark = false) :
    ∃ y, (s.line l).Heard (s.line l).counters.stray y ∧ y.phase = (s.line l).phase ∧ y.rx = (s.line l).rx
      ∧ exec (.characterReceived l raw) s = .next ((s.setLine l y).storeCharacter l a raw.data).react := by
  by_cases hm : g.mode = .async
  · obtain ⟨hf, hpar, hmark⟩ := hgood hm
    have hvalue : (reportOf g raw).value = raw.data := by rw [reportOf, hm]
    refine ⟨_, .over _, rfl, rfl, ?_⟩
    rw [exec_receiving_async hw hg hrun ha hm hp, State.receiveCharacter_good a hf hpar hmark, hvalue]
  · refine ⟨_, .refl _, rfl, rfl, ?_⟩
    rw [exec_characterReceived_clocked hw hg hm, State.clockedCharacter_receiving hp ha, State.setLine_self]

include hw hg hrun ha in
/-- The frame's last character ends the attempt as the frame is judged. -/
theorem endsWith_frame {rx : RxRecord} {i : Instr} {o : AttemptOutcome} {kind : Option RespKind} (h : FrameEnds s l g rx i)
    (hj : judgeFrame a rx = (o, kind)) : EndsWith s l i s.nowUs (s.line l).counters.stray o kind := by
  obtain ⟨raw, rfl, hcomplete, hgood⟩ := h
  have hreport : g.mode = .async →
      (reportOf g raw).framingError = false ∧ (reportOf g raw).parityError = false ∧ (reportOf g raw).mark = false := fun hm => by
    have hmark : (reportOf g raw).mark = raw.mark := by rw [reportOf, hm]
    rw [hmark]
    exact hgood hm
  obtain ⟨y, hy, hphase, hrx, hexec⟩ := exec_stores hw hg hrun ha raw hcomplete.1 hreport
  have hc : Completes ((s.setLine l y).line l) raw.data rx := by
    rw [State.line_setLine_same]
    unfold Completes
    rw [hphase, hrx]
    exact hcomplete
  rw [State.storeCharacter_complete hc hj, State.line_setLine_same, State.setLine_setLine] at hexec
  exact endsWith_setLine (hy.withRx rx) hexec

include hw hg hrun ha in
/-- A failing event ends the attempt with its cause. -/
theorem endsWith_fails {i : Instr} {c : Cause} {due : Nat} {kind : Option RespKind} (h : Fails s l g a i c due kind) :
    ∃ n, EndsWith s l i due n (.failure c) kind := by
  rcases h with ⟨rfl, rfl, rfl, hp, hcase⟩ | ⟨rfl, rfl, rfl, hp, t, ht, rfl⟩ | ⟨rfl, rfl, rfl, hm, hp, hin, hheld, rfl⟩
    | ⟨rfl, raw, rfl, hchar⟩
  · rcases hcase with ⟨hm, hin, t, ht, rfl⟩ | ⟨hm, hf, rfl⟩
    · exact ⟨_, endsWith_responseTimeout_async hw hg hm hp hin ht⟩
    · exact ⟨_, endsWith_responseTimeout_clocked hw hg hm hp hf⟩
  · exact ⟨_, endsWith_gapLimit hw hg hp ht⟩
  · exact ⟨_, endsWith_falseStart hw hg hrun hm hp hin hheld⟩
  rcases hchar with ⟨rfl, hm, hp, rfl, hheld, hf, hmark⟩ | ⟨rfl, hm, hp, hcause⟩ | ⟨rfl, hm, hp, rfl, hf, hne, hv⟩
    | ⟨rfl, hm, hp, hcause⟩ | ⟨rfl, hp, rfl, hc, hl, hv, hgood⟩ | ⟨rx, hframe, hj⟩
  · refine ⟨_, endsWith_setLine (y := (s.line l).receptionOver.countStray) ⟨false, _, _, _, _, rfl, rfl⟩ ?_⟩
    have hheld' : ((s.setLine l (s.line l).receptionOver).line l).timeoutHeld = true := by rw [State.line_setLine_same]; exact hheld
    rw [exec_awaiting_async hw hg hrun ha hm hp, State.awaitCharacter_heldTimeout a hf hmark hheld', State.line_setLine_same,
      State.setLine_setLine]
    rfl
  · exact ⟨_, endsWith_setLine (.over _) (by
      rw [exec_awaiting_async hw hg hrun ha hm hp, State.awaitCharacter_fails hcause]
      rfl)⟩
  · refine ⟨_, endsWith_setLine (.refl _) ?_⟩
    rw [exec_characterReceived_clocked hw hg hm, State.clockedCharacter_awaiting hp ha hf, if_neg hne, State.setLine_self]
    exact congrArg (fun u : State => Host.Outcome.next u.react) (if_neg hv)
  · exact ⟨_, endsWith_setLine (.over _) (by
      rw [exec_receiving_async hw hg hrun ha hm hp, State.receiveCharacter_fails hcause]
      rfl)⟩
  · obtain ⟨y, hy, _, hrx, hexec⟩ := exec_stores hw hg hrun ha raw hp hgood
    have hline : ((s.setLine l y).line l).rx = (s.line l).rx := by rw [State.line_setLine_same]; exact hrx
    obtain ⟨rx, heff⟩ := State.storeCharacter_tooLong (s := s.setLine l y) (l := l) a (by rw [hline]; exact hc) (by rw [hline]; exact hl) hv
    rw [heff, State.line_setLine_same, State.setLine_setLine] at hexec
    exact ⟨_, endsWith_setLine (hy.withRx rx) hexec⟩
  · exact ⟨_, endsWith_frame hw hg hrun ha hframe hj⟩

/-! ## Conflicts -/

theorem State.characterEnds_conflict (hw : Works s) (hg : (s.line l).config = some g) (ha : (s.line l).attempt = some a)
    (hp : (s.line l).phase = some .sending) (hstop : (s.line l).abortStop = false)
    (hc : (s.line l).conflict = true ∨ (g.mode = .async ∧ (s.line l).echoes ≤ (s.line l).sentPos)) :
    s.characterEnds l = (s.setLine l (s.line l).characterOver).failAttempt l .conflict := by
  have hfound : ((s.line l).conflict || ((s.line l).isAsync && decide ((s.line l).echoes < (s.line l).sentPos + 1))) = true := by
    rw [Line.isAsync_of_config hg]
    simpa [Nat.lt_succ_iff] using hc
  unfold State.characterEnds
  dsimp only
  rw [if_pos ⟨(works_iff s).mp hw, hp⟩, if_neg (by simp [hstop]), ha]
  exact if_pos hfound

theorem Line.Heard.characterOver (x : Line) : x.Heard x.counters.stray x.characterOver := ⟨x.inReception, x.rx, x.timers, _, _, rfl, rfl⟩

include hw hg hrun ha in
/-- A conflict found ends the attempt with CONFLICT. -/
theorem endsWith_conflict {i : Instr} (h : ConflictFound s l g i) :
    EndsWith s l i s.nowUs (s.line l).counters.stray (.failure .conflict) none := by
  rcases h with ⟨rfl, hp, hstop, hc⟩ | ⟨raw, rfl, hp, hm⟩
  · exact endsWith_setLine (.characterOver _) (congrArg (fun u : State => Host.Outcome.next u.react)
      (State.characterEnds_conflict hw hg ha hp hstop hc))
  · refine endsWith_setLine (.over _) ?_
    rw [exec_characterReceived_async hw hg hrun hm, State.asyncReport_lead _ (run_ne_starting hrun) hp]
    rfl

end Events

end Sys2Proof.Machine

/-! # What the end of an attempt makes of its line and its station (R53, R82) -/

namespace Sys2Proof.Machine

open Sys2Proof.Claims

/-- What the slot's decision looks at: the line and the entry after the entry has taken the outcome, and the state of the entry before it. -/
def Line.slotView (y : Line) (before : Option StationState) (z : Option Station) (j : SlotId) : SlotView where
  graceful := y.gracefulStop
  station := z
  wentOffline := z.map (·.state) == some .offline && before != some .offline
  noRetry := before == some .detaching || (match y.slot j with
    | some x => x.lastAttempt
    | none => false)
  busyLimit := match y.config with
    | some c => c.busyLimit
    | none => 0

section Slot

variable {s : State} {l : LineId} {e : EntryId} {x : Station} (hk : s.KeysOk) (hx : s.station e = some x) (hl : x.line = l)
include hk hx hl

theorem State.keyed_focus_option (y : Line) {z : Option Station} (hz : ∀ w ∈ z, w.line = l ∧ w.addr = x.addr) :
    (s.focus l e y z).keyed l x.addr = z := by
  cases z with
  | none => exact State.keyed_focus_none hk hx hl y
  | some w => exact State.keyed_focus hk hx hl y (hz w rfl)

theorem State.keyedState_focus (y : Line) {z : Option Station} (hz : ∀ w ∈ z, w.line = l ∧ w.addr = x.addr) :
    (s.focus l e y z).keyedState l x.addr = z.map (·.state) := by
  rw [State.keyedState, State.keyed_focus_option hk hx hl y hz]

/-- The slot of an attempt decides by what the outcome has made of its line and entry. -/
theorem State.slotOutcome_focus {a : Attempt} {o : AttemptOutcome} {j : SlotId} {y y' : Line} {z : Station} {z' : Option Station}
    (haddr : x.addr = a.addr) (hz : z.line = l ∧ z.addr = x.addr) (hz' : ∀ w ∈ z', w.line = l ∧ w.addr = x.addr)
    (hentry : (s.focus l e ((y.modSlot j (·.countAttempt o)).countHostResponse o) (some z)).entryOutcome e
      (some z.state == some .detaching) a o = s.focus l e y' z') :
    (s.focus l e y (some z)).slotOutcome l j a o = s.focus l e (y'.modSlot j (·.decideOutcome (y'.slotView (some z.state) z' j) o)) z' := by
  have hz1 : ∀ w ∈ some z, w.line = l ∧ w.addr = x.addr := fun w hw => by cases hw; exact hz
  unfold State.slotOutcome
  dsimp only
  rw [State.focus_modSlot, State.focus_modLine, ← haddr, State.keyedState_focus hk hx hl _ hz1, State.lookup_focus hk hx hl _ hz]
  dsimp only
  rw [Option.map_some, hentry, State.keyedState_focus hk hx hl _ hz', State.keyed_focus_option hk hx hl _ hz', State.focus_modSlot,
    State.line_focus_same, State.slot, State.line_focus_same]
  rfl

end Slot

/-- The line at its entry to SETTLE with an outcome, the attempt over (R82). -/
def Line.handOff (y : Line) (now : Nat) (o : AttemptOutcome) : Line := { (y.enterSettle now).countOutcome o with attempt := none }

/-- The line after an outcome other than CONFLICT. -/
def Line.unconflicted (y : Line) : Line := { y with conflictCount := 0 }

section End

variable {s : State} {l : LineId} {y : Line} {a : Attempt} (ha : y.attempt = some a) {o : AttemptOutcome} {kind : Option RespKind}
include ha

theorem State.endAttempt_setLine : (s.setLine l y).endAttempt l o kind =
    let t := (((s.setLine l (y.handOff s.nowUs o)).countExchange l a.addr kind).handToRequester l a o).modLine l (Line.countConflict o)
    if Config.conflictLimit ≤ (t.line l).conflictCount then t.faultLine l .conflict else t := by
  unfold State.endAttempt
  rw [State.line_setLine_same, ha]
  dsimp only
  rw [State.modLine_setLine]
  rfl

/-- An outcome other than CONFLICT: the count of conflicts is 0 again (R77). -/
theorem State.endAttempt_plain (ho : o ≠ .failure .conflict) : (s.setLine l y).endAttempt l o kind =
    (((s.setLine l (y.handOff s.nowUs o)).countExchange l a.addr kind).handToRequester l a o).modLine l Line.unconflicted := by
  have hcount : Line.countConflict o = Line.unconflicted := by
    funext w
    exact congrArg (fun n => { w with conflictCount := n }) (if_neg ho)
  rw [State.endAttempt_setLine ha]
  dsimp only
  rw [hcount, State.line_modLine_same]
  exact if_neg (show ¬ Config.conflictLimit ≤ 0 by decide)

/-- The attempt of a slot to a station. -/
theorem State.endAttempt_slot {e : EntryId} {x : Station} {j : SlotId} {y' : Line} {z' : Option Station} (hk : s.KeysOk)
    (hx : s.station e = some x) (hl : x.line = l) (haddr : x.addr = a.addr) (hreq : a.requester = .slot j) (ho : o ≠ .failure .conflict)
    (hz' : ∀ w ∈ z', w.line = l ∧ w.addr = x.addr)
    (hentry : (s.focus l e (((y.handOff s.nowUs o).modSlot j (·.countAttempt o)).countHostResponse o)
      (some (x.countExchange kind))).entryOutcome e (some x.state == some .detaching) a o = s.focus l e y' z') :
    (s.setLine l y).endAttempt l o kind =
      s.focus l e (y'.modSlot j (·.decideOutcome (y'.slotView (some x.state) z' j) o)).unconflicted z' := by
  have hcount : (s.setLine l (y.handOff s.nowUs o)).countExchange l a.addr kind =
      s.focus l e (y.handOff s.nowUs o) (some (x.countExchange kind)) := by
    rw [State.setLine_focus hx, State.countExchange, ← haddr, State.lookup_focus hk hx hl _ ⟨hl, rfl⟩]
    dsimp only
    rw [State.modStation, State.station_focus_same, Option.map_some, State.focus_setStation]
  rw [State.endAttempt_plain ha ho, hcount, State.handToRequester, hreq]
  dsimp only
  rw [State.slotOutcome_focus hk hx hl haddr (z := x.countExchange kind) ⟨hl, rfl⟩ hz' hentry, State.focus_modLine]
  rfl

end End

/-! ## The settled line (R6, R73, R77, R82, R83) -/

/-- The line with no more than its slots, its notice queue, its counters and its Scanner changed. -/
def Line.Handled (y w : Line) : Prop :=
  w = { y with slots := w.slots, noticeQueue := w.noticeQueue, counters := w.counters, scanner := w.scanner }

theorem Line.handOff_eq (y : Line) (now : Nat) (o : AttemptOutcome) :
    y.handOff now o = { y.enterSettle now with attempt := none, counters := (y.handOff now o).counters } := by
  cases o <;> rfl

theorem settles_of_handled {x y w : Line} {g : LineConfig} {n now : Nat} {o : AttemptOutcome} (hg : x.config = some g)
    (hy : x.Heard n y) (hw : (y.handOff now o).Handled w) : Settles g now x w.unconflicted := by
  obtain ⟨r, rx, t, p, sh, ht, rfl⟩ := hy
  rw [Line.Handled, Line.handOff_eq] at hw
  rw [hw]
  have hclocked : (x.heard r rx t n p sh).isClocked = decide (g.mode = .clocked) := Line.isClocked_of_config hg
  have hasync : (x.heard r rx t n p sh).isAsync = decide (g.mode = .async) := Line.isAsync_of_config hg
  refine ⟨⟨rfl, rfl, rfl, rfl, rfl, rfl, rfl⟩, rfl, ⟨rfl, rfl, rfl, ht⟩, ?_, ?_, ⟨rfl, rfl, rfl, rfl, rfl, rfl, rfl⟩⟩
  · show (if (x.heard r rx t n p sh).isClocked || (x.heard r rx t n p sh).quietNow then some now else none) = _
    rw [hclocked]
    simp [Line.quietNow, Line.heard, Line.unconflicted, Line.enterSettle, Pins.quiet]
  · show (if (x.heard r rx t n p sh).isAsync then some now else none) = _
    rw [hasync]
    simp

section Handled

variable (y : Line)

theorem Line.Handled.refl : y.Handled y := rfl

theorem Line.Handled.trans {y v w : Line} (h : y.Handled v) (h' : v.Handled w) : y.Handled w := by
  rw [Line.Handled] at *
  rw [h', h]

theorem Line.Handled.setSlot (i : SlotId) (v : Option Slot) : y.Handled (y.setSlot i v) := rfl

theorem Line.Handled.modSlot (i : SlotId) (f : Slot → Slot) : y.Handled (y.modSlot i f) := rfl

theorem Line.Handled.mapSlots (f : Slot → Slot) : y.Handled (y.mapSlots f) := rfl

theorem Line.Handled.queueNotice (e : EntryId) : y.Handled (y.queueNotice e) := rfl

theorem Line.Handled.unqueued (e : EntryId) : y.Handled (y.unqueued e) := rfl

theorem Line.Handled.countHostResponse (o : AttemptOutcome) : y.Handled (y.countHostResponse o) := by
  unfold Line.countHostResponse
  split <;> rfl

end Handled

/-! ## Failure accounting (R24, R25) -/

/-- The state that failure accounting moves an entry to, none where it stays. -/
def Station.move (z : Station) (g : LineConfig) : Option StationState :=
  failureMove g z.state (satSucc Config.failureCountMax z.failureCount)

/-- The entry after failure accounting at the time `now`. -/
def Station.afterFailure (z : Station) (g : LineConfig) (c : Cause) (now : Nat) : Station :=
  match z.move g with
  | none => z.failed c
  | some st => if st = .offline then (z.failed c).offlineAt (now + g.probeInterval) else (z.failed c).changed st

/-- The line after failure accounting of its entry `e`. -/
def Line.afterFailure (y : Line) (e : EntryId) (z : Station) (g : LineConfig) : Line :=
  match z.move g with
  | none => y
  | some st => if st = .offline then (y.queueNotice e).mapSlots z.offlineSlot else y.queueNotice e

theorem State.failureAccounting_after (s : State) (e : EntryId) (y : Line) (z : Station) {g : LineConfig} (hg : y.config = some g) (c : Cause) :
    (s.focus z.line e y (some z)).failureAccounting e c = s.focus z.line e (y.afterFailure e z g) (some (z.afterFailure g c s.nowMs)) := by
  obtain ⟨hnone, hoffline, hother⟩ := State.failureAccounting_focus s e y z hg c
  unfold Line.afterFailure Station.afterFailure
  cases hm : z.move g with
  | none => exact hnone hm
  | some st =>
    dsimp only
    by_cases hst : st = .offline
    · rw [if_pos hst, if_pos hst]
      exact hoffline (hst ▸ hm)
    · rw [if_neg hst, if_neg hst]
      exact hother st hm hst

/-- The state of an entry after failure accounting (R24). -/
theorem failureMove_getD (g : LineConfig) (st : StationState) (n : Nat) :
    (match st with
      | .offline => .offline
      | .detaching => .detaching
      | .new => if g.offlineAfter ≤ n then .offline else .new
      | .online => if g.offlineAfter ≤ n then .offline else if g.suspectAfter ≤ n then .suspect else .online
      | .suspect => if g.offlineAfter ≤ n then .offline else .suspect) = (failureMove g st n).getD st := by
  cases st with
  | offline => rfl
  | detaching => rfl
  | new => unfold failureMove; dsimp only; split <;> rfl
  | suspect => unfold failureMove; dsimp only; split <;> rfl
  | online =>
    unfold failureMove
    dsimp only
    split
    · rfl
    · split <;> rfl

theorem failureMove_ne (g : LineConfig) (st : StationState) (n : Nat) : failureMove g st n ≠ some st := by
  cases st with
  | offline => nofun
  | detaching => nofun
  | new => unfold failureMove; dsimp only; split <;> nofun
  | suspect => unfold failureMove; dsimp only; split <;> nofun
  | online =>
    unfold failureMove
    dsimp only
    split
    · nofun
    · split <;> nofun

section AfterFailure

variable {z : Station} {g : LineConfig} (c : Cause) (now : Nat) (y : Line) (e : EntryId)

theorem Station.afterFailure_stays (h : z.move g = none) : z.afterFailure g c now = z.failed c ∧ y.afterFailure e z g = y := by
  rw [Station.afterFailure, Line.afterFailure, h]
  exact ⟨rfl, rfl⟩

theorem Station.afterFailure_offline (h : z.move g = some .offline) : z.afterFailure g c now = (z.failed c).offlineAt (now + g.probeInterval)
    ∧ y.afterFailure e z g = (y.queueNotice e).mapSlots z.offlineSlot := by
  rw [Station.afterFailure, Line.afterFailure, h]
  exact ⟨rfl, rfl⟩

theorem Station.afterFailure_moves {st : StationState} (h : z.move g = some st) (hst : st ≠ .offline) :
    z.afterFailure g c now = (z.failed c).changed st ∧ y.afterFailure e z g = y.queueNotice e := by
  rw [Station.afterFailure, Line.afterFailure, h]
  exact ⟨if_neg hst, if_neg hst⟩

end AfterFailure

/-- What failure accounting makes of an entry, and of the notice queue and the slots of its line (R24, R25, R31). -/
structure FailureTaken (g : LineConfig) (c : Cause) (now : Nat) (e : EntryId) (x : Station) (y : Line) (z : Station) (w : Line) : Prop where
  handled : y.Handled w
  kept : w.counters = y.counters ∧ w.scanner = y.scanner
  fields : z = { x with
    state := (x.move g).getD x.state, failureCount := min 15 (x.failureCount + 1), failures := min 65535 (x.failures + 1)
    syncNeeded := z.syncNeeded, redelivery := z.redelivery, losses := z.losses, nextDue := z.nextDue
    noticePending := z.noticePending, changes := z.changes }
  sync : z.syncNeeded = true ↔ x.syncNeeded = true ∨ c = .toggle ∨ x.move g = some .offline
  moved : x.move g = some .offline → z.redelivery = false ∧ z.nextDue = now + g.probeInterval
    ∧ z.losses = if x.redelivery = true then min 65535 (x.losses + 1) else x.losses
  stays : x.move g ≠ some .offline → z.redelivery = x.redelivery ∧ z.nextDue = x.nextDue ∧ z.losses = x.losses
  noticed : Noticed ((x.move g).getD x.state ≠ x.state) e x z y.noticeQueue w.noticeQueue
  slots : ∀ k, w.slot k = (y.slot k).map fun b => if x.move g = some .offline then x.offlineSlot b else b

theorem Station.failed_sync (x : Station) (c : Cause) : (x.failed c).syncNeeded = true ↔ x.syncNeeded = true ∨ c = .toggle := by
  unfold Station.failed
  by_cases hc : c = .toggle <;> simp [hc]

theorem failureTaken_after (g : LineConfig) (c : Cause) (now : Nat) (e : EntryId) (x : Station) (y : Line) :
    FailureTaken g c now e x y (x.afterFailure g c now) (y.afterFailure e x g) := by
  have hcount : (x.failed c).failureCount = min 15 (x.failureCount + 1) := satSucc_eq _ _
  have hfailures : (x.failed c).failures = min 65535 (x.failures + 1) := satSucc_eq _ _
  cases hm : x.move g with
  | none =>
    obtain ⟨hz, hy⟩ := Station.afterFailure_stays c now y e hm
    have hno : x.move g ≠ some .offline := hm.trans_ne nofun
    rw [hz, hy]
    refine ⟨.refl _, ⟨rfl, rfl⟩, ?_, ?_, fun h => absurd h hno, fun _ => ⟨rfl, rfl, rfl⟩, ?_, fun k => ?_⟩
    · rw [← hcount, ← hfailures, hm]
      rfl
    · rw [Station.failed_sync, hm]
      simp
    · rw [hm]
      exact ⟨fun h => absurd rfl h, fun _ => ⟨rfl, rfl, rfl⟩⟩
    · rw [hm]
      exact Option.map_id'.symm
  | some st =>
    have hne : (x.move g).getD x.state ≠ x.state := by
      rw [hm]
      exact fun h => failureMove_ne g _ _ (hm.trans (congrArg some h))
    have hnoticed : ∀ z w, z.noticePending = true → z.changes = satSucc 255 x.changes → w = queueAppend y.noticeQueue e →
        Noticed ((x.move g).getD x.state ≠ x.state) e x z y.noticeQueue w := fun z w hp hc hq =>
      ⟨fun _ => ⟨hp, hc.trans (satSucc_eq _ _), hq.trans (queueAppend_eq _ _)⟩, fun h => absurd hne h⟩
    by_cases hst : st = .offline
    · subst hst
      obtain ⟨hz, hy⟩ := Station.afterFailure_offline c now y e hm
      rw [hz, hy]
      refine ⟨rfl, ⟨rfl, rfl⟩, ?_, ⟨fun _ => .inr (.inr hm), fun _ => rfl⟩, fun _ => ⟨rfl, rfl, ?_⟩, fun h => absurd hm h,
        hnoticed _ _ rfl rfl rfl, fun k => ?_⟩
      · rw [← hcount, ← hfailures, hm]
        rfl
      · rw [← satSucc_eq]
        rfl
      · rw [hm]
        exact Line.slot_mapSlots _ _ _
    · obtain ⟨hz, hy⟩ := Station.afterFailure_moves c now y e hm hst
      have hno : x.move g ≠ some .offline := fun h => hst (Option.some.inj (hm.symm.trans h))
      rw [hz, hy]
      refine ⟨rfl, ⟨rfl, rfl⟩, ?_, ?_, fun h => absurd h hno, fun _ => ⟨rfl, rfl, rfl⟩, hnoticed _ _ rfl rfl rfl, fun k => ?_⟩
      · rw [← hcount, ← hfailures, hm]
        rfl
      · rw [show ((x.failed c).changed st).syncNeeded = (x.failed c).syncNeeded from rfl, Station.failed_sync]
        simp [hno]
      · simp only [if_neg hno]
        exact Option.map_id'.symm

end Sys2Proof.Machine

/-! # How the attempt of a slot ends (R53 to R58) -/

namespace Sys2Proof.Machine

open Sys2Proof.Claims

@[simp] theorem State.slot_focus (s : State) (l : LineId) (e : EntryId) (y : Line) (z : Option Station) (i : SlotId) :
    (s.focus l e y z).slot l i = y.slot i := by
  rw [State.slot, State.line_focus_same]

theorem Line.Heard.kept {x y : Line} {n : Nat} (h : x.Heard n y) : y.slots = x.slots ∧ y.noticeQueue = x.noticeQueue
    ∧ y.scanner = x.scanner ∧ y.config = x.config ∧ y.attempt = x.attempt ∧ y.counters = { x.counters with stray := n } := by
  obtain ⟨r, rx, t, p, sh, _, rfl⟩ := h
  exact ⟨rfl, rfl, rfl, rfl, rfl, rfl⟩

/-- The counters of a line after an outcome of a slot's attempt (R82, R88). -/
def Counters.afterOutcome (n : Counters) : AttemptOutcome → Counters
  | .response .busy _ _ => { n with busy := min 4294967295 (n.busy + 1) }
  | .response .. => { n with delivered := min 4294967295 (n.delivered + 1) }
  | .failure c => counted n c
  | .sent => n

theorem countFailure_eq (n : Counters) (c : Cause) : n.countFailure c = counted n c := by
  cases c <;> simp only [Counters.countFailure, counted, satSucc_eq]

theorem Line.countHostResponse_counters (y : Line) (k : RespKind) (len : Nat) (data : List Byte) :
    (y.countHostResponse (.response k len data)).counters = y.counters.afterOutcome (.response k len data) := by
  cases k <;> simp only [Line.countHostResponse, Line.countBusy, Line.countDelivered, Counters.afterOutcome, satSucc_eq]

/-- The line of a slot's attempt before its entry takes the outcome. -/
def Line.taken (y : Line) (now : Nat) (o : AttemptOutcome) (j : SlotId) : Line :=
  ((y.handOff now o).modSlot j (·.countAttempt o)).countHostResponse o

/-- The line of a slot's attempt as it was found, `x`, and before its entry takes the outcome, `w`. -/
structure LineTaken (g : LineConfig) (now n : Nat) (x : Line) (o : AttemptOutcome) (j : SlotId) (w : Line) : Prop where
  kept : w.config = some g ∧ w.noticeQueue = x.noticeQueue ∧ w.scanner = x.scanner
  slot : w.slot j = (x.slot j).map (·.countAttempt o)
  slots : ∀ k, k ≠ j → w.slot k = x.slot k
  counters : w.counters = ({ x.counters with stray := n } : Counters).afterOutcome o
  settles : ∀ v, w.Handled v → Settles g now x v.unconflicted

theorem lineTaken_of_heard {x y : Line} {g : LineConfig} {n : Nat} (hg : x.config = some g) (hy : x.Heard n y) (now : Nat)
    (o : AttemptOutcome) (j : SlotId) : LineTaken g now n x o j (y.taken now o j) := by
  obtain ⟨hslots, hqueue, hscanner, hconfig, _, hcounters⟩ := hy.kept
  have hhanded : (y.handOff now o).Handled (y.taken now o j) := .trans (.modSlot _ _ _) (.countHostResponse _ _)
  have hslot : ∀ k, (y.taken now o j).slot k = ((y.handOff now o).modSlot j (·.countAttempt o)).slot k := fun k => by
    unfold Line.taken Line.countHostResponse
    split <;> rfl
  have hbefore : ∀ k, (y.handOff now o).slot k = x.slot k := fun k => by
    rw [Line.handOff_eq]
    exact congrArg (vget · k) hslots
  refine ⟨?_, ?_, fun k hk => ?_, ?_, fun v hv => settles_of_handled hg hy (hhanded.trans hv)⟩
  · unfold Line.taken Line.countHostResponse
    rw [Line.handOff_eq, ← hg, ← hqueue, ← hscanner, ← hconfig]
    split <;> exact ⟨rfl, rfl, rfl⟩
  · rw [hslot, Line.slot_modSlot_same, hbefore]
  · rw [hslot, Line.slot_modSlot_ne _ _ hk, hbefore]
  · rw [← hcounters]
    cases o with
    | sent => rfl
    | failure c => exact countFailure_eq _ c
    | response k len data => exact Line.countHostResponse_counters _ k len data

section SlotEnds

variable {s : State} {l : LineId} {g : LineConfig} {a : Attempt} {i : Instr} {o : AttemptOutcome} {kind : Option RespKind} {due n : Nat}
  {j : SlotId} {e : EntryId} {x : Station}

/-- How the attempt of a slot ends: by what the outcome makes of the line and the entry, and by what the slot then decides. -/
theorem slotAttempt_ends (hg : (s.line l).config = some g) (ha : (s.line l).attempt = some a) (hk : s.KeysOk) (hreq : a.requester = .slot j)
    (hx : s.station e = some x) (hl : x.line = l) (haddr : x.addr = a.addr) (ho : o ≠ .failure .conflict)
    (h : EndsWith s l i due n o kind) :
    ∃ w, LineTaken g (reached s due).nowUs n (s.line l) o j w ∧ ∀ y' z', (∀ v ∈ z', v.line = l ∧ v.addr = x.addr) →
      ((reached s due).focus l e w (some (x.countExchange kind))).entryOutcome e (some x.state == some .detaching) a o =
        (reached s due).focus l e y' z' →
      exec i s = .next ((reached s due).focus l e (y'.modSlot j (·.decideOutcome (y'.slotView (some x.state) z' j) o)).unconflicted z').react := by
  obtain ⟨y, hy, hexec⟩ := h
  obtain ⟨_, _, _, _, hattempt, _⟩ := hy.kept
  refine ⟨_, lineTaken_of_heard hg hy _ o j, fun y' z' hz' hentry => hexec.trans ?_⟩
  rw [State.endAttempt_slot (s := reached s due) (hattempt.trans ha) hk hx hl haddr hreq ho hz' hentry]

end SlotEnds

/-! ## A failed attempt (R24, R56, R58) -/

theorem judgeFrame_failure {a : Attempt} {rx : RxRecord} {c : Cause} {kind : Option RespKind} (h : judgeFrame a rx = (.failure c, kind)) :
    c ≠ .conflict := by
  rintro rfl
  unfold judgeFrame at h
  split at h
  · cases h
  · split at h
    · cases h
    · split at h <;> cases h

theorem fails_ne_conflict {s : State} {l : LineId} {g : LineConfig} {a : Attempt} {i : Instr} {c : Cause} {due : Nat}
    {kind : Option RespKind} (h : Fails s l g a i c due kind) : c ≠ .conflict := by
  rcases h with ⟨_, rfl, _⟩ | ⟨_, rfl, _⟩ | ⟨_, rfl, _⟩ | ⟨_, raw, _, hchar⟩
  · nofun
  · nofun
  · nofun
  rcases hchar with ⟨_, _, _, rfl, _⟩ | ⟨_, _, _, hcause⟩ | ⟨_, _, _, rfl, _⟩ | ⟨_, _, _, hcause⟩ | ⟨_, _, rfl, _⟩ | ⟨rx, _, hj⟩
  · nofun
  · rcases hcause with ⟨rfl, _⟩ | ⟨rfl, _⟩ | ⟨rfl, _⟩ <;> nofun
  · nofun
  · rcases hcause with ⟨rfl, _⟩ | ⟨rfl, _⟩ | ⟨rfl, _⟩ <;> nofun
  · nofun
  · exact judgeFrame_failure hj

theorem State.entryOutcome_detaching (s : State) (e : EntryId) (a : Attempt) (o : AttemptOutcome) {st : StationState} (h : st = .detaching) :
    s.entryOutcome e (some st == some .detaching) a o = s.freeEntry e := by
  subst h
  rfl

theorem State.entryOutcome_failure (s : State) (e : EntryId) (a : Attempt) {c : Cause} {st : StationState} (h : st ≠ .detaching)
    (hc : c ≠ .conflict) : s.entryOutcome e (some st == some .detaching) a (.failure c) = s.failureAccounting e c := by
  have hst : ¬ (some st == some StationState.detaching) = true := by simpa using h
  refine (if_neg hst).trans ?_
  cases c with
  | conflict => exact absurd rfl hc
  | _ => rfl

theorem Station.offlineSlot_active (x : Station) {b : Slot} (h : b.state = .active) : x.offlineSlot b = b := by
  unfold Station.offlineSlot Slot.stationOffline Slot.cutOff
  simp [h]

theorem Station.offlineSlot_other (x : Station) {b : Slot} (h : b.addr = x.addr → b.state = .active) : x.offlineSlot b = b := by
  by_cases ha : b.addr = x.addr
  · exact x.offlineSlot_active (h ha)
  · exact if_neg ha

/-- What the move of the station to OFFLINE makes of a slot (R25, R49). -/
theorem offlineReaches_offlineSlot (x : Station) {b : Slot} (h : b.addr = x.addr) : OfflineReaches x b (x.offlineSlot b) := by
  unfold OfflineReaches Station.offlineSlot Slot.stationOffline
  rw [if_pos h]
  split
  · cases x.holdUntil <;> simp
  · exact slotCut_cutOff _ _

/-- The line after a failure of its entry `e`, which is freed in DETACHING (R24, R34). -/
def Line.entryFailed (y : Line) (e : EntryId) (z : Station) (g : LineConfig) : Line :=
  if z.state = .detaching then y.unqueued e else y.afterFailure e z g

/-- The entry after a failure, freed in DETACHING (R24, R34). -/
def Station.entryFailed (z : Station) (g : LineConfig) (c : Cause) (now : Nat) : Option Station :=
  if z.state = .detaching then none else some (z.afterFailure g c now)

theorem Station.move_detaching {z : Station} (g : LineConfig) (h : z.state = .detaching) : z.move g = none := by
  rw [Station.move, h]
  rfl

theorem State.entryOutcome_failed (s : State) (e : EntryId) (y : Line) (z : Station) {g : LineConfig} (hg : y.config = some g) (a : Attempt)
    {c : Cause} (hc : c ≠ .conflict) : (s.focus z.line e y (some z)).entryOutcome e (some z.state == some .detaching) a (.failure c) =
      s.focus z.line e (y.entryFailed e z g) (z.entryFailed g c s.nowMs) := by
  unfold Line.entryFailed Station.entryFailed
  by_cases hd : z.state = .detaching
  · rw [State.entryOutcome_detaching _ _ _ _ hd, State.freeEntry_focus, if_pos hd, if_pos hd]
  · rw [State.entryOutcome_failure _ _ _ hd hc, State.failureAccounting_after _ _ _ _ hg, if_neg hd, if_neg hd]

theorem Line.entryFailed_kept (y : Line) (e : EntryId) (z : Station) (g : LineConfig) : y.Handled (y.entryFailed e z g)
    ∧ (y.entryFailed e z g).counters = y.counters ∧ (y.entryFailed e z g).scanner = y.scanner
    ∧ ∀ k, (y.entryFailed e z g).slot k = (y.slot k).map fun b => if z.move g = some .offline then z.offlineSlot b else b := by
  unfold Line.entryFailed
  by_cases hd : z.state = .detaching
  · rw [if_pos hd]
    refine ⟨rfl, rfl, rfl, fun k => ?_⟩
    rw [Station.move_detaching g hd]
    exact Option.map_id'.symm
  · rw [if_neg hd]
    have h := failureTaken_after g .timeout 0 e z y
    exact ⟨h.handled, h.kept.1, h.kept.2, h.slots⟩

/-- The decision of a slot whose attempt has failed (R56, R58). -/
theorem Slot.decideOutcome_failure (v : SlotView) (c : Cause) (b : Slot) : b.decideOutcome v (.failure c) =
    if v.noRetry = true then b.finishCause (endStatus c) c
    else if (v.wentOffline && !b.sub.force) = true then b.finishCause .stationOffline c
    else if b.retryLeft = true then b.enterReady v.graceful v.station
    else b.finishCause (endStatus c) c := rfl

theorem Slot.decideOutcome_failure_kept (v : SlotView) (c : Cause) (b : Slot) : b.decideOutcome v (.failure c) =
    { b with state := (b.decideOutcome v (.failure c)).state, outcome := (b.decideOutcome v (.failure c)).outcome } := by
  rw [Slot.decideOutcome_failure]
  split
  · rfl
  split
  · rfl
  split
  · exact Slot.enterReady_eq _ _ _
  · rfl

theorem Line.slotView_noRetry {y : Line} {j : SlotId} {b : Slot} (hb : y.slot j = some b) (st : StationState) (z : Option Station) :
    (y.slotView (some st) z j).noRetry = true ↔ st = .detaching ∨ b.lastAttempt = true := by
  simp [Line.slotView, hb]

theorem Station.moved_iff (x : Station) (g : LineConfig) :
    (x.state ≠ .offline ∧ (x.move g).getD x.state = .offline) ↔ x.move g = some .offline := by
  cases hm : x.move g with
  | none => exact ⟨fun h => absurd h.2 h.1, nofun⟩
  | some st =>
    have hne : some st ≠ some x.state := fun h => failureMove_ne g _ _ (hm.trans h)
    exact ⟨fun h => congrArg some h.2, fun h => ⟨fun ho => hne (h.trans (congrArg some ho.symm)), Option.some.inj h⟩⟩

theorem Station.afterFailure_key (z : Station) (g : LineConfig) (c : Cause) (now : Nat) :
    (z.afterFailure g c now).line = z.line ∧ (z.afterFailure g c now).addr = z.addr := by
  unfold Station.afterFailure
  split
  · exact ⟨rfl, rfl⟩
  · split <;> exact ⟨rfl, rfl⟩

theorem Station.entryFailed_key (z : Station) (g : LineConfig) (c : Cause) (now : Nat) :
    ∀ v ∈ z.entryFailed g c now, v.line = z.line ∧ v.addr = z.addr := by
  intro v hv
  unfold Station.entryFailed at hv
  split at hv
  · cases hv
  · cases hv
    exact z.afterFailure_key g c now

theorem counted_stray (n : Counters) (k : Nat) (c : Cause) :
    counted { n with stray := k } c = { counted n c with stray := (counted { n with stray := k } c).stray } := by
  cases c <;> rfl

theorem Line.slotView_wentOffline {y : Line} {z : Station} {g : LineConfig} {c : Cause} {now : Nat} {j : SlotId} (hd : z.state ≠ .detaching) :
    (y.slotView (some z.state) (z.entryFailed g c now) j).wentOffline = true ↔ z.move g = some .offline := by
  have hstate : (z.afterFailure g c now).state = (z.move g).getD z.state := by rw [(failureTaken_after g c now 0 z y).fields]
  rw [Line.slotView, Station.entryFailed, if_neg hd, Option.map_some, hstate, ← z.moved_iff g]
  simp [and_comm]

/-- A slot that is to enter READY after its attempt goes where R49 and R166 put it. -/
theorem enteredReady_decided {s : State} {l : LineId} {e : EntryId} {x : Station} (hk : s.KeysOk) (hx : s.station e = some x) (hl : x.line = l)
    {z : Option Station} (hz : ∀ v ∈ z, v.line = l ∧ v.addr = x.addr) {b : Slot} (hout : b.outcome = none) (hb : b.addr = x.addr) {y : Line}
    {st : Option StationState} {j : SlotId} {f : Slot → Slot} : EnteredReady (s.focus l e (y.modSlot j f).unconflicted z) l
      (b.enterReady (y.slotView st z j).graceful (y.slotView st z j).station) := by
  have h := enteredReady_enterReady (s.focus l e (y.modSlot j f).unconflicted z) l hout
  rw [hb, State.keyed_focus_option hk hx hl _ hz, State.line_focus_same] at h
  exact h

theorem Slot.countAttempt_record (o : AttemptOutcome) (y : Slot) : (y.countAttempt o).record = y.record := by
  unfold Slot.countAttempt
  split <;> rfl

theorem Slot.countAttempt_sub (o : AttemptOutcome) (y : Slot) : (y.countAttempt o).sub = y.sub :=
  congrArg decodeSub (y.countAttempt_record o)

theorem Slot.countAttempt_addr (o : AttemptOutcome) (y : Slot) : (y.countAttempt o).addr = y.addr :=
  congrArg (fun r : SubRec => r.addr.toNat) (y.countAttempt_sub o)

/-- What a slot becomes whose attempt has failed (R56, R58). -/
theorem failedSlot_decides {s : State} {l : LineId} {e : EntryId} {x : Station} (hk : s.KeysOk) (hx : s.station e = some x) (hl : x.line = l)
    {z : Option Station} (hz : ∀ v ∈ z, v.line = l ∧ v.addr = x.addr) {w : Line} {j : SlotId} {y : Slot} {c : Cause} {moved : Prop}
    [Decidable moved] {f : Slot → Slot} (hslot : w.slot j = some (y.countAttempt (.failure c))) (hout : y.outcome = none) (hy : y.addr = x.addr)
    (hmoved : x.state ≠ .detaching → ((w.slotView (some x.state) z j).wentOffline = true ↔ moved)) :
    let b := (y.countAttempt (.failure c)).decideOutcome (w.slotView (some x.state) z j) (.failure c)
    if y.lastAttempt = true ∨ x.state = .detaching then FinishedFor b (endStatus c) c
    else if moved ∧ y.sub.force = false then FinishedFor b .stationOffline c
    else if y.attempts < y.sub.retry.toNat then EnteredReady (s.focus l e (w.modSlot j f).unconflicted z) l b
    else FinishedFor b (endStatus c) c := by
  intro b
  have hretry : (w.slotView (some x.state) z j).noRetry = true ↔ y.lastAttempt = true ∨ x.state = .detaching :=
    (Line.slotView_noRetry hslot _ _).trans or_comm
  have hleft : (y.countAttempt (.failure c)).retryLeft = true ↔ y.attempts < y.sub.retry.toNat := by
    rw [Slot.retryLeft, decide_eq_true_iff, Nat.add_comm 1, Slot.countAttempt_sub]
    exact Nat.succ_lt_succ_iff
  have hb : b = _ := Slot.decideOutcome_failure _ _ _
  by_cases hno : y.lastAttempt = true ∨ x.state = .detaching
  · rw [if_pos hno, hb, if_pos (hretry.mpr hno)]
    exact ⟨rfl, rfl⟩
  have hwent : ((w.slotView (some x.state) z j).wentOffline && !(y.countAttempt (.failure c)).sub.force) = true ↔ moved ∧ y.sub.force = false := by
    rw [Bool.and_eq_true, Bool.not_eq_true', hmoved fun h => hno (.inr h), Slot.countAttempt_sub]
  rw [if_neg hno, hb, if_neg (mt hretry.mp hno)]
  by_cases hoff : moved ∧ y.sub.force = false
  · rw [if_pos hoff, if_pos (hwent.mpr hoff)]
    exact ⟨rfl, rfl⟩
  rw [if_neg hoff, if_neg (mt hwent.mp hoff)]
  by_cases hr : y.attempts < y.sub.retry.toNat
  · rw [if_pos hr, if_pos (hleft.mpr hr)]
    exact enteredReady_decided hk hx hl hz (b := y.countAttempt (.failure c)) hout ((Slot.countAttempt_addr _ _).trans hy)
  · rw [if_neg hr, if_neg (mt hleft.mp hr)]
    exact ⟨rfl, rfl⟩

/-- Settles O42. -/
theorem failedAttemptOfASlot : Obligations.FailedAttemptOfASlot := by
  intro s l g a i c due kind j y e x hw hg hrun ha hfails hk hreq hy hact hout hya hx hl hxa n next moved
  have hc := fails_ne_conflict hfails
  have hnext : next = (x.move g).getD x.state :=
    (failureMove_getD g x.state n).trans (by rw [Station.move, show satSucc Config.failureCountMax x.failureCount = n from satSucc_eq _ _])
  have hmoved : moved ↔ x.move g = some .offline := by
    rw [← x.moved_iff g, ← hnext]
  obtain ⟨stray, hends⟩ := endsWith_fails hw hg hrun ha hfails
  obtain ⟨w, hline, hends⟩ := slotAttempt_ends hg ha hk hreq hx hl hxa (by simpa using hc) hends
  subst hl
  let z := x.countExchange kind
  have hentry := State.entryOutcome_failed (reached s due) e w z hline.kept.1 a hc
  obtain ⟨hhandled, hcounters, hscanner, hslots⟩ := w.entryFailed_kept e z g
  have hexec := hends _ _ (z.entryFailed_key g c (reached s due).nowMs) hentry
  obtain ⟨t, ht, hafter⟩ := leads_of_eq hexec rfl
  refine ⟨_, t, ht, hafter, onlyLineAndEntry_focus _ _ _ _ _, rfl, ?_⟩
  simp only [State.line_focus_same, State.station_focus_same, State.slot_focus]
  have hslot : (w.entryFailed e z g).slot j = some (y.countAttempt (.failure c)) := by
    rw [hslots, hline.slot, show (s.line x.line).slot j = some y from hy]
    refine congrArg some ?_
    split
    · exact z.offlineSlot_active hact
    · rfl
  have hother : ∀ k, k ≠ j → ((w.entryFailed e z g).modSlot j
      (·.decideOutcome ((w.entryFailed e z g).slotView (some x.state) (z.entryFailed g c (reached s due).nowMs) j) (.failure c))).unconflicted.slot k =
        (s.slot x.line k).map fun b => if x.move g = some .offline then x.offlineSlot b else b := fun k hne =>
    (Line.slot_modSlot_ne _ _ hne).trans ((hslots k).trans (by rw [hline.slots k hne]; rfl))
  refine ⟨hline.settles _ (.trans hhandled (.modSlot _ _ _)), ?_, hscanner.trans hline.kept.2.2, fun hd => ?_, fun hd => ?_,
    fun k hnone => ?_, fun k hne b hb => ?_, ?_⟩
  · have hn : ((w.entryFailed e z g).modSlot j
      (·.decideOutcome ((w.entryFailed e z g).slotView (some x.state) (z.entryFailed g c (reached s due).nowMs) j) (.failure c))).unconflicted.counters
        = counted { (s.line x.line).counters with stray := stray } c := hcounters.trans hline.counters
    rw [hn]
    exact counted_stray _ _ _
  · rw [Line.entryFailed, Station.entryFailed, if_pos (show z.state = .detaching from hd), if_pos (show z.state = .detaching from hd)]
    exact ⟨rfl, congrArg (List.filter _) hline.kept.2.1⟩
  · rw [Line.entryFailed, Station.entryFailed, if_neg (show z.state ≠ .detaching from hd), if_neg (show z.state ≠ .detaching from hd)]
    have h := failureTaken_after g c (reached s due).nowMs e z w
    refine ⟨_, rfl, h.fields.trans ?_, h.sync.trans ?_, fun hm => h.moved (hmoved.mp hm), fun hm => h.stays (mt hmoved.mpr hm), ?_⟩
    · rw [hnext, ← satSucc_eq 4294967295 x.exchanges]
      rfl
    · rw [hmoved]
      rfl
    · rw [hnext, ← hline.kept.2.1]
      exact h.noticed
  · have hne : k ≠ j := fun h => nomatch (h ▸ hnone).symm.trans hy
    rw [hother k hne, hnone]
    rfl
  · rw [hother k hne, Option.mem_def.mp hb]
    refine ⟨_, rfl, ?_⟩
    by_cases hm : x.move g = some .offline
    · simp only [if_pos hm]
      split
      · next h => exact offlineReaches_offlineSlot x (h.2.1.trans hxa.symm)
      · next h => exact x.offlineSlot_other fun ha => not_not.mp fun hst => h ⟨hmoved.mpr hm, ha.trans hxa, hst⟩
    · rw [if_neg fun h => hm (hmoved.mp h.1)]
      exact if_neg hm
  · refine ⟨_, (Line.slot_modSlot_same _ _ _).trans (by rw [hslot]; rfl), Slot.decideOutcome_failure_kept _ _ _, ?_⟩
    exact failedSlot_decides hk hx rfl (z.entryFailed_key g c (reached s due).nowMs) hslot hout (hya.trans hxa.symm)
      (fun hd => (Line.slotView_wentOffline (z := z) hd).trans hmoved.symm)

end Sys2Proof.Machine

/-! # Responses to a slot (R21 to R23, R27, R30, R54, R55) -/

namespace Sys2Proof.Machine

open Sys2Proof.Claims

/-! ## A delivered response: the entry and its line -/

/-- What a delivered response makes of an entry, and of the notice queue and the slots of its line (R21 to R23, R30, R108). -/
structure DeliveryTaken (toggle sync : Bool) (now : Nat) (e : EntryId) (x : Station) (y : Line) (z : Station) (w : Line) : Prop where
  handled : y.Handled w
  kept : w.counters = y.counters ∧ w.scanner = y.scanner
  fields : z = { x with
    state := .online, failureCount := 0, toggle := !toggle, redelivery := false, syncNeeded := x.syncNeeded && !sync
    losses := if x.redelivery = true ∧ sync = true then min 65535 (x.losses + 1) else x.losses
    nextDue := if x.state = .offline then now + x.scanPeriod else x.nextDue
    noticePending := z.noticePending, changes := z.changes }
  noticed : Noticed (x.state ≠ .online) e x z y.noticeQueue w.noticeQueue
  slots : ∀ k, w.slot k = (y.slot k).map fun b =>
    if x.redelivery = true ∧ x.holdUntil = none ∧ b.addr = x.addr ∧ b.state = .deferred then { b with state := .ready } else b

theorem Station.online_fields (x : Station) : x.online = { x with
    state := .online, noticePending := x.online.noticePending, changes := x.online.changes } := by
  unfold Station.online
  split
  · next h => rw [← h]
  · rfl

theorem Station.answered_sync (x : Station) (toggle sync : Bool) (now : Nat) :
    (x.answered toggle sync now).syncNeeded = (x.syncNeeded && !sync) := by
  cases sync <;> simp [Station.answered]

/-- The entry after a delivered response, field by field. -/
theorem Station.delivered_fields (x : Station) (toggle sync : Bool) (now : Nat) : x.delivered toggle sync now = { x with
    state := .online, failureCount := 0, toggle := !toggle, redelivery := false, syncNeeded := x.syncNeeded && !sync
    losses := if x.redelivery = true ∧ sync = true then min 65535 (x.losses + 1) else x.losses
    nextDue := if x.state = .offline then now + x.scanPeriod else x.nextDue
    noticePending := (x.answered toggle sync now).online.noticePending, changes := (x.answered toggle sync now).online.changes } := by
  rw [← x.answered_sync toggle sync now]
  unfold Station.delivered
  rw [Station.online_fields]
  cases hr : x.redelivery with
  | false =>
    rw [if_neg Bool.false_ne_true]
    simp [Station.answered, hr]
  | true =>
    rw [if_pos rfl, ← satSucc_eq]
    simp [Station.answered, Station.redelivered]

theorem deliveryTaken_delivered (toggle sync : Bool) (now : Nat) (e : EntryId) (x : Station) (y : Line) :
    DeliveryTaken toggle sync now e x y (x.delivered toggle sync now) (y.delivered e x) := by
  have hfields := x.delivered_fields toggle sync now
  have honline : y.Handled (y.online e x) ∧ (y.online e x).counters = y.counters ∧ (y.online e x).scanner = y.scanner
      ∧ (∀ k, (y.online e x).slot k = y.slot k)
      ∧ (y.online e x).noticeQueue = if x.state = .online then y.noticeQueue else queueAppend y.noticeQueue e := by
    unfold Line.online
    split <;> exact ⟨rfl, rfl, rfl, fun _ => rfl, rfl⟩
  obtain ⟨hhandled, hcounters, hscanner, hslots, hqueue⟩ := honline
  have hline : (y.online e x).Handled (y.delivered e x) ∧ (y.delivered e x).counters = (y.online e x).counters
      ∧ (y.delivered e x).scanner = (y.online e x).scanner ∧ (y.delivered e x).noticeQueue = (y.online e x).noticeQueue := by
    unfold Line.delivered
    split <;> exact ⟨rfl, rfl, rfl, rfl⟩
  obtain ⟨hhandled', hcounters', hscanner', hqueue'⟩ := hline
  refine ⟨hhandled.trans hhandled', ⟨hcounters'.trans hcounters, hscanner'.trans hscanner⟩, ?_, ?_, fun k => ?_⟩
  · exact hfields.trans (by rw [hfields])
  · rw [hqueue', hqueue]
    have hnotice : (x.delivered toggle sync now).noticePending = (x.answered toggle sync now).online.noticePending
        ∧ (x.delivered toggle sync now).changes = (x.answered toggle sync now).online.changes := by
      rw [hfields]
      exact ⟨rfl, rfl⟩
    rw [Noticed, hnotice.1, hnotice.2]
    refine ⟨fun h => ?_, fun h => ?_⟩
    · rw [if_neg h, Station.online, if_neg (show (x.answered toggle sync now).state ≠ _ from h), queueAppend_eq]
      exact ⟨rfl, satSucc_eq _ _, rfl⟩
    · have ho := not_not.mp h
      rw [if_pos ho, Station.online, if_pos (show (x.answered toggle sync now).state = _ from ho)]
      exact ⟨rfl, rfl, rfl⟩
  · rw [← hslots k, Line.delivered]
    by_cases hr : x.redelivery = true ∧ x.holdUntil = none
    · rw [if_pos hr]
      refine (Line.slot_mapSlots _ _ _).trans ?_
      congr 1
      funext b
      simp only [hr.1, hr.2, true_and, and_comm]
    · rw [if_neg hr]
      refine (Option.map_id'.symm.trans ?_)
      congr 1
      funext b
      exact (if_neg fun h => hr ⟨h.1, h.2.1⟩).symm

/-- The line after a delivered response of its entry `e`, which is freed in DETACHING (R23, R34). -/
def Line.entryDelivered (y : Line) (e : EntryId) (z : Station) : Line := if z.state = .detaching then y.unqueued e else y.delivered e z

/-- The entry after a delivered response, freed in DETACHING (R23, R34). -/
def Station.entryDelivered (z : Station) (toggle sync : Bool) (now : Nat) : Option Station :=
  if z.state = .detaching then none else some (z.delivered toggle sync now)

theorem State.entryOutcome_response (s : State) (e : EntryId) (a : Attempt) {k : RespKind} (len : Nat) (data : List Byte) {st : StationState}
    (h : st ≠ .detaching) (hk : k ≠ .busy) :
    s.entryOutcome e (some st == some .detaching) a (.response k len data) = s.stationDelivered e a.toggle a.sync := by
  have hst : ¬ (some st == some StationState.detaching) = true := by simpa using h
  refine (if_neg hst).trans ?_
  cases k with
  | busy => exact absurd rfl hk
  | _ => rfl

theorem Station.delivered_key (z : Station) (toggle sync : Bool) (now : Nat) :
    (z.delivered toggle sync now).line = z.line ∧ (z.delivered toggle sync now).addr = z.addr := by
  rw [z.delivered_fields]
  exact ⟨rfl, rfl⟩

theorem Station.entryDelivered_key (z : Station) (toggle sync : Bool) (now : Nat) :
    ∀ v ∈ z.entryDelivered toggle sync now, v.line = z.line ∧ v.addr = z.addr := by
  intro v hv
  unfold Station.entryDelivered at hv
  split at hv
  · cases hv
  · cases hv
    exact z.delivered_key toggle sync now

theorem State.entryOutcome_delivered {s : State} {e : EntryId} {x z : Station} (hk : s.KeysOk) (hx : s.station e = some x)
    (hz : z.line = x.line ∧ z.addr = x.addr) (y : Line) (a : Attempt) {k : RespKind} (hb : k ≠ .busy) (len : Nat) (data : List Byte) :
    (s.focus x.line e y (some z)).entryOutcome e (some z.state == some .detaching) a (.response k len data) =
      s.focus x.line e (y.entryDelivered e z) (z.entryDelivered a.toggle a.sync s.nowMs) := by
  unfold Line.entryDelivered Station.entryDelivered
  by_cases hd : z.state = .detaching
  · rw [State.entryOutcome_detaching _ _ _ _ hd, ← hz.1, State.freeEntry_focus, if_pos hd, if_pos hd]
  · rw [State.entryOutcome_response _ _ _ _ _ hd hb, State.stationDelivered_focus hk hx rfl hz, if_neg hd, if_neg hd]

theorem Line.entryDelivered_kept (y : Line) (e : EntryId) (z : Station) : y.Handled (y.entryDelivered e z)
    ∧ (y.entryDelivered e z).counters = y.counters ∧ (y.entryDelivered e z).scanner = y.scanner
    ∧ ∀ k, (y.entryDelivered e z).slot k = (y.slot k).map fun b =>
      if z.state ≠ .detaching ∧ z.redelivery = true ∧ z.holdUntil = none ∧ b.addr = z.addr ∧ b.state = .deferred then
        { b with state := .ready } else b := by
  unfold Line.entryDelivered
  by_cases hd : z.state = .detaching
  · rw [if_pos hd]
    refine ⟨rfl, rfl, rfl, fun k => Option.map_id'.symm.trans ?_⟩
    congr 1
    funext b
    exact (if_neg fun h => h.1 hd).symm
  · rw [if_neg hd]
    have h := deliveryTaken_delivered false false 0 e z y
    refine ⟨h.handled, h.kept.1, h.kept.2, fun k => (h.slots k).trans ?_⟩
    simp only [ne_eq, hd, not_false_eq_true, true_and]

/-! ## A delivered response: the slot (R54, R59, R91) -/

theorem Slot.countAttempt_answered (y : Slot) {k : RespKind} (hb : k ≠ .busy) (len : Nat) (data : List Byte) :
    y.countAttempt (.response k len data) = { y with attempts := y.attempts + 1 } := by
  cases k with
  | busy => exact absurd rfl hb
  | _ => rfl

theorem Slot.beginStoring_eq (y : Slot) (data : List Byte) : y.beginStoring data =
    if rangeOk y.sub.buf (min data.length y.sub.inLimit.toNat) = true then { y with state := .storing, response := data }
    else { y with state := .finishing, response := data, outcome := some ⟨.hostWriteError, y.deliveredDetail, data.length, 0⟩ } := rfl

/-- What a slot becomes whose attempt has been answered. -/
theorem answeredSlot_decides (v : SlotView) (y : Slot) {k : RespKind} (hb : k ≠ .busy) (len : Nat) (data : List Byte) :
    let b := ({ y with attempts := y.attempts + 1 } : Slot).decideOutcome v (.response k len data)
    let ends := fun (st : Status) (n : Nat) =>
      b.state = .finishing ∧ b.outcome = some ⟨st, if y.syncAttempt = true then .synced else .none, n, 0⟩
    b = { y with state := b.state, outcome := b.outcome, response := b.response, attempts := y.attempts + 1 }
    ∧ (k = .refused → ends .refused len) ∧ (k = .done ∨ k = .empty → ends .ok len)
    ∧ (k = .data → b.response = data
        ∧ (y.sub.buf.toNat + min data.length y.sub.inLimit.toNat ≤ 2 ^ 64 → b.state = .storing ∧ b.outcome = y.outcome)
        ∧ (2 ^ 64 < y.sub.buf.toNat + min data.length y.sub.inLimit.toNat → 0 < min data.length y.sub.inLimit.toNat →
            ends .hostWriteError data.length)) := by
  intro b ends
  cases k with
  | busy => exact absurd rfl hb
  | refused => exact ⟨rfl, fun _ => ⟨rfl, rfl⟩, nofun, nofun⟩
  | done => exact ⟨rfl, nofun, fun _ => ⟨rfl, rfl⟩, nofun⟩
  | empty => exact ⟨rfl, nofun, fun _ => ⟨rfl, rfl⟩, nofun⟩
  | data =>
    have hb : b = _ := Slot.beginStoring_eq { y with attempts := y.attempts + 1 } data
    have hsub : ({ y with attempts := y.attempts + 1 } : Slot).sub = y.sub := rfl
    rw [hsub] at hb
    by_cases hr : rangeOk y.sub.buf (min data.length y.sub.inLimit.toNat) = true
    · rw [if_pos hr] at hb
      have hfits := of_decide_eq_true hr
      refine ⟨by rw [hb], nofun, fun h => (by rcases h with h | h <;> cases h), fun _ => ⟨congrArg Slot.response hb, fun _ => ⟨congrArg Slot.state hb, (congrArg Slot.outcome hb :)⟩,
        fun habove hpos => ?_⟩⟩
      omega
    · rw [if_neg hr] at hb
      have habove := fun h => hr (decide_eq_true h)
      exact ⟨by rw [hb], nofun, fun h => (by rcases h with h | h <;> cases h), fun _ => ⟨congrArg Slot.response hb, fun h => absurd (.inr h) habove,
        fun _ _ => ⟨congrArg Slot.state hb, congrArg Slot.outcome hb⟩⟩⟩

/-- Settles O43. -/
theorem deliveredResponseOfASlot : Obligations.DeliveredResponseOfASlot := by
  intro s l g a i rx k len data j y e x hw hg hrun ha hframe hj hb hk hreq hy hact hya hx hl hxa detail ends
  obtain ⟨w, hline, hends⟩ := slotAttempt_ends hg ha hk hreq hx hl hxa (o := .response k len data) nofun
    (endsWith_frame hw hg hrun ha hframe hj)
  rw [reached_now] at hline hends
  subst hl
  let z := x.countExchange (some k)
  have hentry := State.entryOutcome_delivered (z := z) hk hx ⟨rfl, rfl⟩ w a hb len data
  obtain ⟨hhandled, hcounters, hscanner, hslots⟩ := w.entryDelivered_kept e z
  have hexec := hends _ _ (z.entryDelivered_key a.toggle a.sync s.nowMs) hentry
  obtain ⟨t, ht, hafter⟩ := leads_of_eq hexec rfl
  refine ⟨_, t, ht, hafter, onlyLineAndEntry_focus _ _ _ _ _, rfl, ?_⟩
  simp only [State.line_focus_same, State.station_focus_same, State.slot_focus]
  have hslot : (w.entryDelivered e z).slot j = some { y with attempts := y.attempts + 1 } := by
    rw [hslots, hline.slot, show (s.line x.line).slot j = some y from hy, Option.map_some, y.countAttempt_answered hb]
    refine congrArg some (if_neg fun h => ?_)
    exact nomatch hact.symm.trans h.2.2.2.2
  have hother : ∀ m, m ≠ j → ((w.entryDelivered e z).modSlot j (·.decideOutcome ((w.entryDelivered e z).slotView (some x.state)
      (z.entryDelivered a.toggle a.sync s.nowMs) j) (.response k len data))).unconflicted.slot m =
        (s.slot x.line m).map fun b => if x.state ≠ .detaching ∧ x.redelivery = true ∧ x.holdUntil = none ∧ b.addr = a.addr
          ∧ b.state = .deferred then { b with state := .ready } else b := fun m hne => by
    rw [← hxa]
    exact (Line.slot_modSlot_ne _ _ hne).trans ((hslots m).trans (by rw [hline.slots m hne]; rfl))
  refine ⟨hline.settles _ (.trans hhandled (.modSlot _ _ _)), (hcounters.trans hline.counters).trans ?_, hscanner.trans hline.kept.2.2,
    fun hd => ?_, fun hd => ?_, fun m hnone => ?_, fun m hne b hm => ?_, ?_⟩
  · cases k with
    | busy => exact absurd rfl hb
    | _ => rfl
  · rw [Line.entryDelivered, Station.entryDelivered, if_pos (show z.state = .detaching from hd), if_pos (show z.state = .detaching from hd)]
    exact ⟨rfl, congrArg (List.filter _) hline.kept.2.1⟩
  · rw [Line.entryDelivered, Station.entryDelivered, if_neg (show z.state ≠ .detaching from hd), if_neg (show z.state ≠ .detaching from hd)]
    have h := deliveryTaken_delivered a.toggle a.sync s.nowMs e z w
    refine ⟨_, rfl, h.fields.trans ?_, ?_⟩
    · rw [← satSucc_eq 4294967295 x.exchanges]
      rfl
    · rw [← hline.kept.2.1]
      exact h.noticed
  · have hne : m ≠ j := fun h => nomatch (h ▸ hnone).symm.trans hy
    rw [hother m hne, hnone]
    rfl
  · rw [hother m hne, Option.mem_def.mp hm]
    exact ⟨_, rfl, rfl⟩
  · exact ⟨_, (Line.slot_modSlot_same _ _ _).trans (by rw [hslot]; rfl), answeredSlot_decides _ y hb len data⟩

/-! ## A BUSY response (R27, R49, R55) -/

/-- The line after a BUSY response of its entry `e`, which is freed in DETACHING (R27, R34); the hold-off ends at `t`. -/
def Line.entryBusy (y : Line) (e : EntryId) (z : Station) (t : Nat) : Line :=
  if z.state = .detaching then y.unqueued e else y.deferFor (z.busyUntil t)

/-- The entry after a BUSY response, freed in DETACHING (R27, R34). -/
def Station.entryBusy (z : Station) (t : Nat) : Option Station := if z.state = .detaching then none else some (z.busyUntil t)

theorem State.entryOutcome_busy {s : State} {e : EntryId} {x z : Station} (hk : s.KeysOk) (hx : s.station e = some x)
    (hz : z.line = x.line ∧ z.addr = x.addr) {y : Line} {g : LineConfig} (hg : y.config = some g) (a : Attempt) (len : Nat) (data : List Byte) :
    (s.focus x.line e y (some z)).entryOutcome e (some z.state == some .detaching) a (.response .busy len data) =
      s.focus x.line e (y.entryBusy e z (s.nowMs + g.busyHoldOff)) (z.entryBusy (s.nowMs + g.busyHoldOff)) := by
  unfold Line.entryBusy Station.entryBusy
  by_cases hd : z.state = .detaching
  · rw [State.entryOutcome_detaching _ _ _ _ hd, ← hz.1, State.freeEntry_focus, if_pos hd, if_pos hd]
  · have hst : ¬ (some z.state == some StationState.detaching) = true := by simpa using hd
    rw [if_neg hd, if_neg hd]
    exact (if_neg hst).trans (State.stationBusy_focus hk hx rfl hz y hg)

theorem Station.entryBusy_key (z : Station) (t : Nat) : ∀ v ∈ z.entryBusy t, v.line = z.line ∧ v.addr = z.addr := by
  intro v hv
  unfold Station.entryBusy at hv
  split at hv
  · cases hv
  · cases hv
    exact ⟨rfl, rfl⟩

/-- What a BUSY response makes of a slot of the line of its entry. -/
def Line.busySlot (y : Line) (z : Station) (t : Nat) (b : Slot) : Slot :=
  if z.state ≠ .detaching ∧ b.addr = z.addr ∧ b.state = .ready then b.enterReady y.gracefulStop (some (z.busyUntil t)) else b

theorem Line.entryBusy_kept (y : Line) (e : EntryId) (z : Station) (t : Nat) : y.Handled (y.entryBusy e z t)
    ∧ (y.entryBusy e z t).counters = y.counters ∧ (y.entryBusy e z t).scanner = y.scanner
    ∧ (y.entryBusy e z t).noticeQueue = (if z.state = .detaching then y.noticeQueue.filter (· ≠ e) else y.noticeQueue)
    ∧ ∀ k, (y.entryBusy e z t).slot k = (y.slot k).map (y.busySlot z t) := by
  unfold Line.entryBusy
  by_cases hd : z.state = .detaching
  · rw [if_pos hd, if_pos hd]
    refine ⟨rfl, rfl, rfl, rfl, fun k => Option.map_id'.symm.trans ?_⟩
    congr 1
    funext b
    exact (if_neg fun h => h.1 hd).symm
  · rw [if_neg hd, if_neg hd]
    refine ⟨rfl, rfl, rfl, rfl, fun k => (Line.slot_mapSlots _ _ _).trans ?_⟩
    congr 1
    funext b
    simp only [Line.busySlot, ne_eq, hd, not_false_eq_true, true_and, and_comm]
    rfl

theorem Line.busySlot_kept (y : Line) (z : Station) (t : Nat) (b : Slot) :
    y.busySlot z t b = { b with state := (y.busySlot z t b).state, outcome := (y.busySlot z t b).outcome } := by
  unfold Line.busySlot
  split
  · exact Slot.enterReady_eq _ _ _
  · rfl

theorem Line.Handled.gracefulStop {y w : Line} (h : y.Handled w) : w.gracefulStop = y.gracefulStop := by
  rw [Line.Handled] at h
  rw [h]
  rfl

theorem Line.Handled.config {y w : Line} (h : y.Handled w) : w.config = y.config := by
  rw [Line.Handled] at h
  rw [h]

/-- What a slot becomes whose station has answered BUSY (R55, R58). -/
theorem busySlot_decides {s : State} {l : LineId} {e : EntryId} {x : Station} (hk : s.KeysOk) (hx : s.station e = some x) (hl : x.line = l)
    {z : Option Station} (hz : ∀ v ∈ z, v.line = l ∧ v.addr = x.addr) {w : Line} {j : SlotId} {y : Slot} {len : Nat} {data : List Byte}
    {f : Slot → Slot} (hslot : w.slot j = some (y.countAttempt (.response .busy len data))) {g : LineConfig} (hg : w.config = some g)
    (hout : y.outcome = none) (hy : y.addr = x.addr) :
    let b := (y.countAttempt (.response .busy len data)).decideOutcome (w.slotView (some x.state) z j) (.response .busy len data)
    b = { y with state := b.state, outcome := b.outcome, busy := y.busy + 1 }
    ∧ if x.state = .detaching ∨ y.lastAttempt = true ∨ g.busyLimit < y.busy + 1 then Finished b .stationBusy
      else EnteredReady (s.focus l e (w.modSlot j f).unconflicted z) l b := by
  intro b
  have hends : ((w.slotView (some x.state) z j).noRetry
      || decide ((w.slotView (some x.state) z j).busyLimit < (y.countAttempt (.response .busy len data)).busy)) = true ↔
        x.state = .detaching ∨ y.lastAttempt = true ∨ g.busyLimit < y.busy + 1 := by
    have hlimit : (w.slotView (some x.state) z j).busyLimit = g.busyLimit := by
      rw [Line.slotView, hg]
    rw [Bool.or_eq_true, Line.slotView_noRetry hslot, decide_eq_true_iff, hlimit, or_assoc]
    rfl
  by_cases h : x.state = .detaching ∨ y.lastAttempt = true ∨ g.busyLimit < y.busy + 1
  · have hb : b = (y.countAttempt (.response .busy len data)).finishPlain .stationBusy := if_pos (hends.mpr h)
    rw [if_pos h, hb]
    exact ⟨rfl, rfl, rfl⟩
  · have hb : b = (y.countAttempt (.response .busy len data)).enterReady _ _ := if_neg (mt hends.mp h)
    rw [if_neg h, hb]
    exact ⟨Slot.enterReady_eq _ _ _, enteredReady_decided hk hx hl hz (b := y.countAttempt (.response .busy len data)) hout
      ((Slot.countAttempt_addr _ _).trans hy)⟩

/-- Settles O44. -/
theorem busyResponseOfASlot : Obligations.BusyResponseOfASlot := by
  intro s l g a i rx len data j y e x hw hg hrun ha hframe hj hk hreq hy hact hout hya hx hl hxa hold
  obtain ⟨w, hline, hends⟩ := slotAttempt_ends hg ha hk hreq hx hl hxa (o := .response .busy len data) nofun
    (endsWith_frame hw hg hrun ha hframe hj)
  rw [reached_now] at hline hends
  subst hl
  let z := x.countExchange (some .busy)
  have hentry := State.entryOutcome_busy (z := z) hk hx ⟨rfl, rfl⟩ hline.kept.1 a len data
  obtain ⟨hhandled, hcounters, hscanner, hqueue, hslots⟩ := w.entryBusy_kept e z hold
  have hexec := hends _ _ (z.entryBusy_key hold) hentry
  obtain ⟨t, ht, hafter⟩ := leads_of_eq hexec rfl
  refine ⟨_, t, ht, hafter, onlyLineAndEntry_focus _ _ _ _ _, rfl, ?_⟩
  simp only [State.line_focus_same, State.station_focus_same, State.slot_focus]
  have hslot : (w.entryBusy e z hold).slot j = some (y.countAttempt (.response .busy len data)) := by
    rw [hslots, hline.slot, show (s.line x.line).slot j = some y from hy, Option.map_some, Option.map_some]
    refine congrArg some (if_neg fun h => ?_)
    exact nomatch hact.symm.trans h.2.2
  have hother : ∀ m, m ≠ j → ((w.entryBusy e z hold).modSlot j (·.decideOutcome ((w.entryBusy e z hold).slotView (some x.state)
      (z.entryBusy hold) j) (.response .busy len data))).unconflicted.slot m = (s.slot x.line m).map (w.busySlot z hold) := fun m hne =>
    (Line.slot_modSlot_ne _ _ hne).trans ((hslots m).trans (by rw [hline.slots m hne]; rfl))
  refine ⟨hline.settles _ (.trans hhandled (.modSlot _ _ _)), (hcounters.trans hline.counters).trans rfl, hscanner.trans hline.kept.2.2,
    fun hd => ?_, fun hd => ?_, fun m hnone => ?_, fun m hne b hm => ?_, ?_⟩
  · refine ⟨if_pos (show z.state = .detaching from hd), hqueue.trans ((if_pos (show z.state = .detaching from hd)).trans ?_)⟩
    rw [hline.kept.2.1]
  · refine ⟨hqueue.trans ((if_neg (show z.state ≠ .detaching from hd)).trans hline.kept.2.1),
      (if_neg (show z.state ≠ .detaching from hd)).trans ?_⟩
    rw [← satSucc_eq, ← satSucc_eq]
    rfl
  · have hne : m ≠ j := fun h => nomatch (h ▸ hnone).symm.trans hy
    rw [hother m hne, hnone]
    rfl
  · rw [hother m hne, Option.mem_def.mp hm]
    refine ⟨_, rfl, w.busySlot_kept z hold b, ?_⟩
    by_cases h : x.state ≠ .detaching ∧ b.addr = a.addr ∧ b.state = .ready
    · have hlive : z.entryBusy hold = some (z.busyUntil hold) := if_neg h.1
      have haddr := h.2.1.trans hxa.symm
      rw [if_pos h]
      intro hnone
      rw [show w.busySlot z hold b = _ from if_pos ⟨h.1, haddr, h.2.2⟩, ← hhandled.gracefulStop, ← hlive]
      exact enteredReady_decided (st := some x.state) (j := j) hk hx rfl (z.entryBusy_key hold) hnone haddr
    · rw [if_neg h]
      exact if_neg fun h' => h ⟨h'.1, h'.2.1.trans hxa, h'.2.2⟩
  · exact ⟨_, (Line.slot_modSlot_same _ _ _).trans (by rw [hslot]; rfl),
      busySlot_decides hk hx rfl (z.entryBusy_key hold) hslot (hhandled.config.trans hline.kept.1) hout (hya.trans hxa.symm)⟩

end Sys2Proof.Machine

/-! # Attempts that no station answers (R57, R75 to R78) -/

namespace Sys2Proof.Machine

open Sys2Proof.Claims

/-! ## The end of an attempt without an entry -/

/-- No entry has the broadcast address (R18). -/
theorem State.lookup_broadcast {s : State} (hk : s.KeysOk) (l : LineId) : s.lookup l 0 = none := by
  rw [State.lookup_eq_none]
  intro e x hx hkey
  have := hk.1 e x hx
  omega

theorem State.setLine_modSlot (s : State) (l : LineId) (y : Line) (j : SlotId) (f : Slot → Slot) :
    (s.setLine l y).modSlot l j f = s.setLine l (y.modSlot j f) := State.modLine_setLine s l y _

theorem State.slotOutcome_noEntry {s : State} {l : LineId} {a : Attempt} (hn : s.lookup l a.addr = none) (y : Line) (o : AttemptOutcome)
    (j : SlotId) : (s.setLine l y).slotOutcome l j a o =
      let w := (y.modSlot j (·.countAttempt o)).countHostResponse o
      s.setLine l (w.modSlot j (·.decideOutcome (w.slotView none none j) o)) := by
  have hlookup : ∀ w, (s.setLine l w).lookup l a.addr = none := fun _ => hn
  have hkeyed : ∀ w, (s.setLine l w).keyed l a.addr = none := fun _ => State.keyed_eq_none.mpr hn
  unfold State.slotOutcome
  dsimp only
  rw [State.setLine_modSlot, State.modLine_setLine, hlookup]
  dsimp only
  rw [State.keyedState, hkeyed, State.setLine_modSlot, State.slot, State.line_setLine_same]
  rfl

/-- The attempt of a slot whose address no entry has. -/
theorem State.endAttempt_noEntry {s : State} {l : LineId} {y : Line} {a : Attempt} (ha : y.attempt = some a) {o : AttemptOutcome}
    {kind : Option RespKind} {j : SlotId} (hn : s.lookup l a.addr = none) (hreq : a.requester = .slot j) (ho : o ≠ .failure .conflict) :
    (s.setLine l y).endAttempt l o kind = s.setLine l
      ((y.taken s.nowUs o j).modSlot j (·.decideOutcome ((y.taken s.nowUs o j).slotView none none j) o)).unconflicted := by
  have hcount : (s.setLine l (y.handOff s.nowUs o)).countExchange l a.addr kind = s.setLine l (y.handOff s.nowUs o) := by
    rw [State.countExchange, show (s.setLine l (y.handOff s.nowUs o)).lookup l a.addr = none from hn]
  rw [State.endAttempt_plain ha ho, hcount, State.handToRequester, hreq]
  dsimp only
  rw [State.slotOutcome_noEntry hn, State.modLine_setLine]
  rfl

/-- Settles O46. -/
theorem broadcastEndsSent : Obligations.BroadcastEndsSent := by
  intro s l g a j y hw hg hrun hk hp hstop hconflict ha haddr hlen hecho hreq hy
  have hn : s.lookup l a.addr = none := haddr ▸ State.lookup_broadcast hk l
  have heff : s.characterEnds l = (s.setLine l (s.line l).characterOver).endAttempt l .sent none := by
    rw [State.characterEnds_eq hg hw hp ha hstop hconflict hecho, if_neg (by omega), State.sendingEnds, if_pos haddr]
  have hend := State.endAttempt_noEntry (s := s) (y := (s.line l).characterOver) (kind := none) (o := .sent) ha hn hreq nofun
  have hline := lineTaken_of_heard hg (.characterOver _) s.nowUs .sent j
  have hexec : exec (.characterSent l) s = _ := congrArg (fun u : State => Host.Outcome.next u.react) (heff.trans hend)
  obtain ⟨t, ht, hafter⟩ := leads_of_eq hexec rfl
  refine ⟨_, t, ht, hafter, rfl, fun k hne => State.line_setLine_ne _ _ hne, ?_⟩
  rw [State.line_setLine_same]
  refine ⟨hline.settles _ (.modSlot _ _ _), hline.counters, ?_⟩
  have hslots : ((s.line l).characterOver.taken s.nowUs .sent j).slots =
      vput (s.line l).slots j (((s.line l).slot j).map (·.countAttempt .sent)) := rfl
  refine (congrArg (vput _ j) (congrArg (Option.map _) hline.slot)).trans ?_
  rw [hslots, vput_vput, show (s.line l).slot j = some y from hy]
  rfl

end Sys2Proof.Machine

/-! # The outcome of a scan poll (R108, R111, R113, R116, R121) -/

namespace Sys2Proof.Machine

open Sys2Proof.Claims

/-! ## The line and the requester -/

/-- The line of an attempt as it was found, `x`, and at its entry to SETTLE, `w`. -/
structure LineHanded (g : LineConfig) (now n : Nat) (x : Line) (o : AttemptOutcome) (w : Line) : Prop where
  kept : w.config = some g ∧ w.noticeQueue = x.noticeQueue ∧ w.scanner = x.scanner ∧ w.slots = x.slots
  counters : w.counters = match o with
    | .failure c => counted { x.counters with stray := n } c
    | _ => { x.counters with stray := n }
  settles : ∀ v, w.Handled v → Settles g now x v.unconflicted

theorem lineHanded_of_heard {x y : Line} {g : LineConfig} {n : Nat} (hg : x.config = some g) (hy : x.Heard n y) (now : Nat)
    (o : AttemptOutcome) : LineHanded g now n x o (y.handOff now o) := by
  obtain ⟨hslots, hqueue, hscanner, hconfig, _, hcounters⟩ := hy.kept
  refine ⟨?_, ?_, fun v hv => settles_of_handled hg hy hv⟩
  · rw [Line.handOff_eq, ← hg, ← hqueue, ← hscanner, ← hconfig, ← hslots]
    exact ⟨rfl, rfl, rfl, rfl⟩
  · rw [← hcounters]
    cases o with
    | failure c => exact countFailure_eq _ c
    | response => rfl
    | sent => rfl

/-- How the attempt of a scan poll ends: its Scanner takes the outcome. -/
theorem pollAttempt_ends {s : State} {l : LineId} {g : LineConfig} {a : Attempt} {i : Instr} {o : AttemptOutcome} {kind : Option RespKind}
    {due n : Nat} {e : EntryId} {x : Station} {sync : Bool} (hg : (s.line l).config = some g) (ha : (s.line l).attempt = some a)
    (hk : s.KeysOk) (hreq : a.requester = .scanner) (hpolled : (s.line l).scanner.polled = some (e, sync)) (hx : s.station e = some x)
    (hl : x.line = l) (haddr : x.addr = a.addr) (ho : o ≠ .failure .conflict) (h : EndsWith s l i due n o kind) :
    ∃ w, LineHanded g (reached s due).nowUs n (s.line l) o w ∧ exec i s =
      .next ((((reached s due).focus l e w (some (x.countExchange kind))).scanOutcome l e (some x.state == some .detaching) a o).modLine l
        Line.unconflicted).react := by
  obtain ⟨y, hy, hexec⟩ := h
  obtain ⟨_, _, _, _, hattempt, _⟩ := hy.kept
  have hline := lineHanded_of_heard hg hy (reached s due).nowUs o
  refine ⟨_, hline, hexec.trans ?_⟩
  have hcount : ((reached s due).setLine l (y.handOff (reached s due).nowUs o)).countExchange l a.addr kind =
      (reached s due).focus l e (y.handOff (reached s due).nowUs o) (some (x.countExchange kind)) := by
    rw [State.setLine_focus (s := reached s due) hx, State.countExchange, ← haddr,
      State.lookup_focus (s := reached s due) hk hx hl _ ⟨hl, rfl⟩]
    dsimp only
    rw [State.modStation, State.station_focus_same, Option.map_some, State.focus_setStation]
  rw [State.endAttempt_plain (s := reached s due) (hattempt.trans ha) ho, hcount, State.handToRequester, hreq]
  dsimp only
  rw [State.line_focus_same, hline.kept.2.2.1, hpolled]
  dsimp only
  rw [State.station_focus_same]
  rfl

/-! ## Where every poll goes -/

/-- What the end of a scan poll of entry `e`, which was `x`, leads to in every case. -/
def PollGoes (s : State) (l : LineId) (g : LineConfig) (e : EntryId) (x : Station) (i : Instr) (u : State) : Prop :=
  ∃ t, exec i s = .next t ∧ AfterUnits u t
    ∧ Settles g u.nowUs (s.line l) (u.line l)
    ∧ u = { s with crings := u.crings, lines := u.lines, stations := u.stations, pool := u.pool, deviceTime := u.deviceTime }
    ∧ (∀ f, f ≠ e → u.station f = s.station f)
    ∧ (∀ m, s.slot l m = none → u.slot l m = none)
    ∧ (x.state = .detaching → u.station e = none ∧ (u.line l).noticeQueue = (s.line l).noticeQueue.filter (· ≠ e)
        ∧ (u.line l).slots = (s.line l).slots)

/-- The line and the entry that a poll's outcome leaves: nothing but slots, notice queue, counters and Scanner has changed since the entry to
SETTLE, no slot has been taken, and an entry in DETACHING is freed. -/
structure PollLeaves (w : Line) (e : EntryId) (x : Station) (y : Line) (z : Option Station) : Prop where
  handled : w.Handled y
  free : ∀ m, w.slot m = none → y.slot m = none
  freed : x.state = .detaching → z = none ∧ y.noticeQueue = w.noticeQueue.filter (· ≠ e) ∧ y.slots = w.slots

/-- A poll's end, its reservation returned. -/
theorem State.pollEnds_frame (s : State) (l : LineId) (q : CRingId) : ∃ u sc, u = (s.pollReturned l q).modLine l Line.unconflicted
    ∧ u = { s with crings := u.crings, lines := u.lines } ∧ u.line l = ({ s.line l with scanner := sc } : Line).unconflicted
    ∧ Returned s u l q := by
  have hul := State.line_modLine_same (s.pollReturned l q) l Line.unconflicted
  have hum : ∀ m, m ≠ l → ((s.pollReturned l q).modLine l Line.unconflicted).line m = (s.pollReturned l q).line m := fun m hm =>
    State.line_modLine_ne _ _ hm
  obtain ⟨hidle, hreservation, hpolled, hcrings, hrefused, hothers⟩ := s.returned_pollReturned l q
  have hscanner : ∀ m, (((s.pollReturned l q).modLine l Line.unconflicted).line m).scanner = ((s.pollReturned l q).line m).scanner :=
    fun m => by
      by_cases hm : m = l
      · subst hm
        rw [hul]
        rfl
      · rw [hum m hm]
  rw [State.line_pollReturned_same] at hul
  refine ⟨_, _, rfl, rfl, hul, ?_⟩
  unfold Returned
  simp only [hscanner]
  exact ⟨hidle, hreservation, hpolled, hcrings, hrefused, fun m hm => (hum m hm).trans (hothers m hm)⟩

theorem pollGoes_of_line {s u : State} {l : LineId} {g : LineConfig} {i : Instr} {o : AttemptOutcome} {due n : Nat} {e : EntryId}
    {x : Station} {w y : Line} {z : Option Station} {sc : Scanner} (hline : LineHanded g (reached s due).nowUs n (s.line l) o w)
    (h : PollLeaves w e x y z) (hleads : ∃ t, exec i s = .next t ∧ AfterUnits u t)
    (hframe : u = { s with crings := u.crings, lines := u.lines, stations := u.stations, pool := u.pool, deviceTime := u.deviceTime })
    (htime : u.deviceTime = (reached s due).deviceTime) (hstations : u.stations = ((reached s due).focus l e y z).stations)
    (hul : u.line l = ({ y with scanner := sc } : Line).unconflicted) : PollGoes s l g e x i u := by
  obtain ⟨t, ht, hafter⟩ := hleads
  have hslots : ∀ m, s.slot l m = w.slot m := fun m => congrArg (vget · m) hline.kept.2.2.2.symm
  have hstation : ∀ f, u.station f = ((reached s due).focus l e y z).station f := fun f => congrArg (vget · f) hstations
  refine ⟨t, ht, hafter, ?_, hframe, fun f hf => ?_, fun m hm => ?_, fun hd => ⟨?_, ?_, ?_⟩⟩
  · rw [hul, State.nowUs, htime]
    exact hline.settles _ (.trans h.handled rfl)
  · rw [hstation, State.station_focus_ne _ _ _ _ _ hf]
    rfl
  · rw [State.slot, hul]
    exact h.free m ((hslots m).symm.trans hm)
  · rw [hstation, State.station_focus_same]
    exact (h.freed hd).1
  · rw [hul, ← hline.kept.2.1]
    exact (h.freed hd).2.1
  · rw [hul, ← hline.kept.2.2.2]
    exact (h.freed hd).2.2

/-- A reservation returned with the line and the entry put in place. -/
theorem returned_of_focus {s u : State} {l : LineId} {e : EntryId} {y : Line} {z : Option Station} {q : CRingId}
    (hscanner : y.scanner = (s.line l).scanner) (hconfig : y.config = (s.line l).config) (h : Returned (s.focus l e y z) u l q) :
    Returned s u l q := by
  obtain ⟨hidle, hreservation, hpolled, hcrings, hrefused, hothers⟩ := h
  refine ⟨hidle, hreservation, hpolled, hcrings, fun m => (hrefused m).trans ?_, fun m hm => (hothers m hm).trans ?_⟩
  · by_cases hm : m = l
    · subst hm
      rw [State.line_focus_same, hscanner, Line.noticeRing, hconfig]
      rfl
    · rw [State.line_focus_ne _ _ _ _ _ hm]
  · rw [State.line_focus_ne _ _ _ _ _ hm]

/-- A poll whose reservation is returned. -/
theorem pollGoes_returned {s : State} {l : LineId} {g : LineConfig} {i : Instr} {o : AttemptOutcome} {due n : Nat} {e : EntryId} {x : Station}
    {q : CRingId} {w y : Line} {z : Option Station} (hg : (s.line l).config = some g)
    (hline : LineHanded g (reached s due).nowUs n (s.line l) o w) (h : PollLeaves w e x y z) (hscanner : y.scanner = w.scanner)
    (hexec : exec i s = .next ((((reached s due).focus l e y z).pollReturned l q).modLine l Line.unconflicted).react) :
    ∃ u, PollGoes s l g e x i u ∧ u.deviceTime = (reached s due).deviceTime ∧ u.pool = s.pool ∧ Returned s u l q
      ∧ u.stations = ((reached s due).focus l e y z).stations ∧ ∃ sc, u.line l = ({ y with scanner := sc } : Line).unconflicted := by
  obtain ⟨u, sc, hu, hframe, hul, hreturned⟩ := ((reached s due).focus l e y z).pollEnds_frame l q
  rw [State.line_focus_same] at hul
  have hstations : u.stations = ((reached s due).focus l e y z).stations := by rw [hframe]
  have htime : u.deviceTime = (reached s due).deviceTime := by rw [hframe]; rfl
  refine ⟨u, pollGoes_of_line hline h (leads_of_eq hexec hu.symm) ?_ htime hstations hul, htime, by rw [hframe]; rfl, ?_, hstations, sc, hul⟩
  · rw [hframe]
    rfl
  · exact returned_of_focus (s := reached s due) (hscanner.trans hline.kept.2.2.1) (h.handled.config.trans (hline.kept.1.trans hg.symm))
      hreturned

/-! ## What the Scanner makes of each outcome -/

theorem State.endPoll_eq {s : State} {l : LineId} {q : CRingId} (h : (s.line l).scanner.reservation = some q) :
    s.endPoll l = s.pollReturned l q := by
  unfold State.endPoll
  dsimp only
  rw [h]
  rfl

/-- The entry after a delivered scan response, freed in DETACHING (R23, R34, R108). -/
def Station.polledDelivered (z : Station) (toggle sync : Bool) (now : Nat) : Option Station :=
  if z.state = .detaching then none else some { z.delivered toggle sync now with nextDue := now + z.scanPeriod }

/-- The entry after a failed scan poll, freed in DETACHING (R24, R34, R108). -/
def Station.polledFailed (z : Station) (g : LineConfig) (c : Cause) (now : Nat) : Option Station :=
  if z.state = .detaching then none else some { z.afterFailure g c now with
    nextDue := now + if (z.afterFailure g c now).state = .offline then g.probeInterval else (z.afterFailure g c now).scanPeriod }

/-- The line and the entry after a DATA response that found no pool entry, the entry freed in DETACHING (R29, R34). -/
def Line.entryRedelivery (y : Line) (e : EntryId) (z : Station) (now : Nat) : Line :=
  if z.state = .detaching then y.unqueued e else y.deferFor (z.redeliverAt now)

def Station.entryRedelivery (z : Station) (now : Nat) : Option Station := if z.state = .detaching then none else some (z.redeliverAt now)

theorem Station.afterFailure_scanPeriod (z : Station) (g : LineConfig) (c : Cause) (now : Nat) :
    (z.afterFailure g c now).scanPeriod = z.scanPeriod := by
  unfold Station.afterFailure
  split
  · rfl
  · split <;> rfl

section Scanner

variable {s : State} {e : EntryId} {x z : Station} (hk : s.KeysOk) (hx : s.station e = some x) (hz : z.line = x.line ∧ z.addr = x.addr)
  {y : Line} {g : LineConfig} (hg : y.config = some g) (a : Attempt)

theorem State.freeDetaching_focus (hz : z.line = x.line ∧ z.addr = x.addr) (y : Line) :
    (s.focus x.line e y (some z)).freeDetaching e = s.focus x.line e (y.unqueued e) none := by
  rw [← hz.1]
  exact State.freeEntry_focus _ _ _ _

theorem Line.deliveredHandled (y : Line) (e : EntryId) (z : Station) : y.Handled (y.delivered e z) :=
  (deliveryTaken_delivered false false 0 e z y).handled

include hk hx hz hg in
theorem State.scanDelivered_focus : (s.focus x.line e y (some z)).scanDelivered x.line e (some z.state == some .detaching) a =
    s.focus x.line e (y.countDelivered.entryDelivered e z) (z.polledDelivered a.toggle a.sync s.nowMs) := by
  unfold State.scanDelivered Line.entryDelivered Station.polledDelivered
  dsimp only
  rw [State.focus_modLine]
  by_cases hd : z.state = .detaching
  · rw [if_pos hd, if_pos hd, if_pos (by simpa using hd), State.freeDetaching_focus hz]
  · have hconfig : (y.countDelivered.delivered e z).config = some g := (Line.deliveredHandled _ _ _).config.trans hg
    have hline : (z.delivered a.toggle a.sync s.nowMs).line = x.line := (z.delivered_key _ _ _).1.trans hz.1
    rw [if_neg hd, if_neg hd, if_neg (by simpa using hd), State.stationDelivered_focus hk hx rfl hz,
      State.scheduleNext_focus _ _ _ _ hline hconfig, z.delivered_fields]
    rfl

include hz hg in
theorem State.scanFailed_focus (c : Cause) : (if (some z.state == some .detaching) = true then (s.focus x.line e y (some z)).freeDetaching e
      else ((s.focus x.line e y (some z)).failureAccounting e c).scheduleNext e) =
    s.focus x.line e (y.entryFailed e z g) (z.polledFailed g c s.nowMs) := by
  unfold Line.entryFailed Station.polledFailed
  by_cases hd : z.state = .detaching
  · rw [if_pos hd, if_pos hd, if_pos (by simpa using hd), State.freeDetaching_focus hz]
  · have hconfig : (y.afterFailure e z g).config = some g := (failureTaken_after g c 0 e z y).handled.config.trans hg
    have hline : (z.afterFailure g c s.nowMs).line = z.line := (z.afterFailure_key _ _ _).1
    rw [if_neg hd, if_neg hd, if_neg (by simpa using hd), ← hz.1, State.failureAccounting_after _ _ _ _ hg,
      State.scheduleNext_focus _ _ _ _ hline hconfig]

include hk hx hz hg in
theorem State.scanBusy_focus : (if (some z.state == some .detaching) = true then (s.focus x.line e y (some z)).freeDetaching e
      else (s.focus x.line e y (some z)).stationBusy e) =
    s.focus x.line e (y.entryBusy e z (s.nowMs + g.busyHoldOff)) (z.entryBusy (s.nowMs + g.busyHoldOff)) := by
  unfold Line.entryBusy Station.entryBusy
  by_cases hd : z.state = .detaching
  · rw [if_pos hd, if_pos hd, if_pos (by simpa using hd), State.freeDetaching_focus hz]
  · rw [if_neg hd, if_neg hd, if_neg (by simpa using hd), State.stationBusy_focus hk hx rfl hz y hg]

include hk hx hz in
theorem State.scanRedelivery_focus : (if (some z.state == some .detaching) = true then (s.focus x.line e y (some z)).freeDetaching e
      else (s.focus x.line e y (some z)).stationRedelivery e) =
    s.focus x.line e (y.entryRedelivery e z s.nowMs) (z.entryRedelivery s.nowMs) := by
  unfold Line.entryRedelivery Station.entryRedelivery
  by_cases hd : z.state = .detaching
  · rw [if_pos hd, if_pos hd, if_pos (by simpa using hd), State.freeDetaching_focus hz]
  · rw [if_neg hd, if_neg hd, if_neg (by simpa using hd), State.stationRedelivery_focus hk hx rfl hz y]

end Scanner

theorem Line.entryRedelivery_kept (y : Line) (e : EntryId) (z : Station) (now : Nat) : y.Handled (y.entryRedelivery e z now)
    ∧ (y.entryRedelivery e z now).counters = y.counters ∧ (y.entryRedelivery e z now).scanner = y.scanner
    ∧ (y.entryRedelivery e z now).noticeQueue = (if z.state = .detaching then y.noticeQueue.filter (· ≠ e) else y.noticeQueue)
    ∧ ∀ m, y.slot m = none → (y.entryRedelivery e z now).slot m = none := by
  unfold Line.entryRedelivery
  by_cases hd : z.state = .detaching
  · rw [if_pos hd, if_pos hd]
    exact ⟨rfl, rfl, rfl, rfl, fun _ => id⟩
  · rw [if_neg hd, if_neg hd]
    refine ⟨rfl, rfl, rfl, rfl, fun m hm => ?_⟩
    rw [Line.deferFor, Line.slot_mapSlots, hm]
    rfl

theorem Line.entryDelivered_scanner (y : Line) (e : EntryId) (z : Station) (sc : Scanner) :
    ({ y with scanner := sc } : Line).entryDelivered e z = { y.entryDelivered e z with scanner := sc } := by
  unfold Line.entryDelivered Line.delivered Line.online
  split
  · rfl
  · split <;> split <;> rfl

/-! ## What the outcome leaves -/

/-- A delivered scan response leaves these (R21 to R23, R30, R108). -/
def PollDelivers (s : State) (l : LineId) (e : EntryId) (x : Station) (a : Attempt) (k : RespKind) (u : State) : Prop :=
  (u.line l).counters = { (s.line l).counters with delivered := min 4294967295 ((s.line l).counters.delivered + 1) }
  ∧ (x.state ≠ .detaching →
    (∃ z, u.station e = some z
      ∧ z = { x with
          exchanges := min 4294967295 (x.exchanges + 1), lastKind := some k
          state := .online, failureCount := 0, toggle := !a.toggle, syncNeeded := x.syncNeeded && !a.sync
          redelivery := false, nextDue := s.nowMs + x.scanPeriod
          losses := if x.redelivery = true ∧ a.sync = true then min 65535 (x.losses + 1) else x.losses
          noticePending := z.noticePending, changes := z.changes }
      ∧ Noticed (x.state ≠ .online) e x z (s.line l).noticeQueue (u.line l).noticeQueue)
    ∧ ∀ m, ∀ b ∈ s.slot l m, ∃ b' ∈ u.slot l m, b' =
      if x.redelivery = true ∧ x.holdUntil = none ∧ b.addr = a.addr ∧ b.state = .deferred then
        { b with state := .ready } else b)

/-- The READY slots of the station have been deferred, or ended by a graceful stop (R49). -/
def PollDefers (s : State) (l : LineId) (a : Attempt) (u : State) : Prop :=
  ∀ m, ∀ b ∈ s.slot l m, ∃ b' ∈ u.slot l m,
    b' = { b with state := b'.state, outcome := b'.outcome }
    ∧ if b.addr = a.addr ∧ b.state = .ready then b.outcome = none → EnteredReady u l b' else b' = b

theorem State.keyed_congr {s u : State} (h : u.stations = s.stations) (l : LineId) (a : Nat) : u.keyed l a = s.keyed l a := by
  unfold State.keyed State.lookup State.entryHasKey State.station
  rw [h]

section Leaves

variable {s u : State} {l : LineId} {e : EntryId} {x : Station} {w : Line} {a : Attempt} {g : LineConfig} {n now : Nat} {k : RespKind}
  {len : Nat} {data : List Byte} {sc : Scanner}

theorem pollDelivers_of_line (hw : LineHanded g now (s.line l).counters.stray (s.line l) (.response k len data) w) (haddr : x.addr = a.addr)
    (hul : u.line l = ({ w.countDelivered.entryDelivered e (x.countExchange (some k)) with scanner := sc } : Line).unconflicted)
    (hue : u.station e = (x.countExchange (some k)).polledDelivered a.toggle a.sync s.nowMs) : PollDelivers s l e x a k u := by
  obtain ⟨hhandled, hcounters, _, hslots⟩ := w.countDelivered.entryDelivered_kept e (x.countExchange (some k))
  have hcount : (u.line l).counters = (w.countDelivered.entryDelivered e (x.countExchange (some k))).counters := by rw [hul]; rfl
  refine ⟨?_, fun hd => ⟨?_, fun m b hb => ?_⟩⟩
  · rw [hcount, hcounters, Line.countDelivered, hw.counters, satSucc_eq]
  · have h := deliveryTaken_delivered a.toggle a.sync s.nowMs e (x.countExchange (some k)) w.countDelivered
    have hqueue : (u.line l).noticeQueue = (w.countDelivered.delivered e (x.countExchange (some k))).noticeQueue := by
      rw [hul, Line.entryDelivered, if_neg (show (x.countExchange (some k)).state ≠ .detaching from hd)]
      rfl
    refine ⟨_, hue.trans (if_neg (show (x.countExchange (some k)).state ≠ .detaching from hd)), ?_, ?_⟩
    · rw [h.fields, ← satSucc_eq 4294967295 x.exchanges]
      rfl
    · rw [hqueue, ← hw.kept.2.1]
      exact h.noticed
  · have hslot : u.slot l m = (w.countDelivered.entryDelivered e (x.countExchange (some k))).slot m := by rw [State.slot, hul]; rfl
    have hb' : w.countDelivered.slot m = some b := (congrArg (vget · m) hw.kept.2.2.2).trans hb
    rw [hslot, hslots, hb', ← haddr]
    refine ⟨_, rfl, ?_⟩
    simp only [ne_eq, show (x.countExchange (some k)).state = x.state from rfl, hd, not_false_eq_true, true_and]
    rfl

/-- The READY slots of the station of entry `e`, which has become `z`, are deferred (R49). -/
theorem pollDefers_of_slots (hk : s.KeysOk) (hx : s.station e = some x) (hl : x.line = l) (haddr : x.addr = a.addr) {z : Station} {y : Line}
    (hz : z.line = l ∧ z.addr = x.addr) (hstations : u.stations = (s.focus l e y (some z)).stations)
    (hslots : ∀ m, u.slot l m = (s.slot l m).map fun b =>
      if b.state = .ready ∧ b.addr = z.addr then b.enterReady (u.line l).gracefulStop (some z) else b) : PollDefers s l a u := by
  intro m b hb
  rw [hslots, Option.mem_def.mp hb]
  by_cases h : b.state = .ready ∧ b.addr = z.addr
  · refine ⟨_, rfl, ?_⟩
    beta_reduce
    have hba : b.addr = x.addr := h.2.trans hz.2
    rw [if_pos h, if_pos ⟨hba.trans haddr, h.1⟩]
    refine ⟨Slot.enterReady_eq _ _ _, fun hnone => ?_⟩
    have hkeyed : u.keyed l b.addr = some z := by
      rw [State.keyed_congr hstations, hba]
      exact State.keyed_focus hk hx hl y hz
    have hentered := enteredReady_enterReady u l hnone
    rw [hkeyed] at hentered
    exact hentered
  · refine ⟨_, rfl, ?_⟩
    beta_reduce
    rw [if_neg h, if_neg fun h' => h ⟨h'.2, h'.1.trans (haddr.symm.trans hz.2.symm)⟩]
    exact ⟨rfl, rfl⟩

theorem pollDefers_of_deferFor (hk : s.KeysOk) (hx : s.station e = some x) (hl : x.line = l) (haddr : x.addr = a.addr) {z : Station} {y : Line}
    (hz : z.line = l ∧ z.addr = x.addr) (hstations : u.stations = (s.focus l e (y.deferFor z) (some z)).stations)
    (hy : y.slots = (s.line l).slots) (hul : u.line l = ({ y.deferFor z with scanner := sc } : Line).unconflicted) : PollDefers s l a u := by
  refine pollDefers_of_slots hk hx hl haddr hz hstations fun m => ?_
  have hslot : u.slot l m = (y.deferFor z).slot m := by rw [State.slot, hul]; rfl
  rw [hslot, show (u.line l).gracefulStop = y.gracefulStop by rw [hul]; rfl, show s.slot l m = y.slot m from congrArg (vget · m) hy.symm]
  exact Line.slot_mapSlots _ _ _

end Leaves

/-- What a poll's outcome leaves, from its slots and its freed entry. -/
theorem pollLeaves_of_map {w y : Line} {e : EntryId} {x : Station} {z : Option Station} {f : Slot → Slot} (hhandled : w.Handled y)
    (hslots : ∀ m, y.slot m = (w.slot m).map f)
    (hfreed : x.state = .detaching → z = none ∧ y.noticeQueue = w.noticeQueue.filter (· ≠ e) ∧ y.slots = w.slots) :
    PollLeaves w e x y z :=
  ⟨hhandled, fun m hm => by rw [hslots, hm]; rfl, hfreed⟩

theorem pollLeaves_delivered (w : Line) (e : EntryId) (x : Station) (k : RespKind) (toggle sync : Bool) (now : Nat) :
    PollLeaves w e x (w.countDelivered.entryDelivered e (x.countExchange (some k)))
      ((x.countExchange (some k)).polledDelivered toggle sync now) := by
  obtain ⟨hhandled, _, _, hslots⟩ := w.countDelivered.entryDelivered_kept e (x.countExchange (some k))
  refine pollLeaves_of_map (.trans (show w.Handled w.countDelivered from rfl) hhandled) hslots fun h => ?_
  have hd : (x.countExchange (some k)).state = .detaching := h
  rw [Station.polledDelivered, Line.entryDelivered, if_pos hd, if_pos hd]
  exact ⟨rfl, rfl, rfl⟩

/-! ## The cases -/

section Cases

variable {s : State} {g : LineConfig} {a : Attempt} {i : Instr} {e : EntryId} {x : Station} {q : CRingId} {w : Line} {k : RespKind} {len : Nat}
  {data : List Byte} (hk : s.KeysOk) (hx : s.station e = some x) (hxa : x.addr = a.addr) (hg : (s.line x.line).config = some g)
  (hres : (s.line x.line).scanner.reservation = some q)
  (hw : LineHanded g (reached s s.nowUs).nowUs (s.line x.line).counters.stray (s.line x.line) (.response k len data) w)
  (hexec : exec i s = .next (((s.focus x.line e w (some (x.countExchange (some k)))).scanOutcome x.line e (some x.state == some .detaching) a
    (.response k len data)).modLine x.line Line.unconflicted).react)

include hk hx hxa hg hres hw hexec in
/-- DONE, EMPTY and REFUSED. -/
theorem poll_delivered (hd : k = .done ∨ k = .empty ∨ k = .refused) : ∃ u, PollGoes s x.line g e x i u ∧ u.deviceTime = s.deviceTime
    ∧ u.pool = s.pool ∧ Returned s u x.line q ∧ PollDelivers s x.line e x a k u := by
  let z := x.countExchange (some k)
  have hscan : (s.focus x.line e w (some z)).scanOutcome x.line e (some z.state == some .detaching) a (.response k len data) =
      ((s.focus x.line e w (some z)).scanDelivered x.line e (some z.state == some .detaching) a).endPoll x.line := by
    rcases hd with rfl | rfl | rfl <;> rfl
  have hscanned := State.scanDelivered_focus (z := z) hk hx ⟨rfl, rfl⟩ hw.kept.1 a
  have hscanner := (w.countDelivered.entryDelivered_kept e z).2.2.1
  have hreservation : ((s.focus x.line e (w.countDelivered.entryDelivered e z) (z.polledDelivered a.toggle a.sync s.nowMs)).line
      x.line).scanner.reservation = some q := by
    rw [State.line_focus_same, hscanner]
    exact (congrArg Scanner.reservation hw.kept.2.2.1).trans hres
  have hend := hscan.trans ((congrArg (State.endPoll · x.line) hscanned).trans (State.endPoll_eq hreservation))
  obtain ⟨u, hgoes, htime, hpool, hreturned, hstations, sc, hul⟩ := pollGoes_returned hg hw (pollLeaves_delivered w e x k _ _ _) hscanner
    (hexec.trans (by rw [reached_now]; exact congrArg (fun v : State => Host.Outcome.next (v.modLine x.line Line.unconflicted).react) hend))
  rw [reached_now] at hstations htime
  exact ⟨u, hgoes, htime, hpool, hreturned, pollDelivers_of_line hw hxa hul
    ((congrArg (vget · e) hstations).trans (State.station_focus_same _ _ _ _ _))⟩

include hk hx hxa hg hres hw hexec in
/-- BUSY. -/
theorem poll_busy (hb : k = .busy) : ∃ u, PollGoes s x.line g e x i u ∧ u.deviceTime = s.deviceTime ∧ u.pool = s.pool
    ∧ Returned s u x.line q
    ∧ (u.line x.line).counters = { (s.line x.line).counters with busy := min 4294967295 ((s.line x.line).counters.busy + 1) }
    ∧ (x.state ≠ .detaching → (u.line x.line).noticeQueue = (s.line x.line).noticeQueue ∧ PollDefers s x.line a u
        ∧ u.station e = some { x with
            exchanges := min 4294967295 (x.exchanges + 1), lastKind := some .busy
            holdUntil := some (s.nowMs + g.busyHoldOff), nextDue := s.nowMs + g.busyHoldOff, busy := min 65535 (x.busy + 1) }) := by
  subst hb
  let z := x.countExchange (some .busy)
  let hold := s.nowMs + g.busyHoldOff
  have hscan : (s.focus x.line e w (some z)).scanOutcome x.line e (some z.state == some .detaching) a (.response .busy len data) =
      (s.focus x.line e (w.countBusy.entryBusy e z hold) (z.entryBusy hold)).endPoll x.line := by
    rw [← State.scanBusy_focus (z := z) hk hx ⟨rfl, rfl⟩ (y := w.countBusy) hw.kept.1, ← State.focus_modLine]
    rfl
  obtain ⟨hhandled, hcounters, hscanner, hqueue, hslots⟩ := w.countBusy.entryBusy_kept e z hold
  have hreservation : ((s.focus x.line e (w.countBusy.entryBusy e z hold) (z.entryBusy hold)).line x.line).scanner.reservation = some q := by
    rw [State.line_focus_same, hscanner]
    exact (congrArg Scanner.reservation hw.kept.2.2.1).trans hres
  have hleaves : PollLeaves w e x (w.countBusy.entryBusy e z hold) (z.entryBusy hold) :=
    pollLeaves_of_map (.trans (show w.Handled w.countBusy from rfl) hhandled) hslots fun h => by
      have hd : z.state = .detaching := h
      rw [Station.entryBusy, Line.entryBusy, if_pos hd, if_pos hd]
      exact ⟨rfl, rfl, rfl⟩
  obtain ⟨u, hgoes, htime, hpool, hreturned, hstations, sc, hul⟩ := pollGoes_returned hg hw hleaves hscanner
    (hexec.trans (by
      rw [reached_now]
      exact congrArg (fun v : State => Host.Outcome.next (v.modLine x.line Line.unconflicted).react)
        (hscan.trans (State.endPoll_eq hreservation))))
  rw [reached_now] at hstations htime
  refine ⟨u, hgoes, htime, hpool, hreturned, ?_, fun hd => ?_⟩
  · have hcount : (u.line x.line).counters = (w.countBusy.entryBusy e z hold).counters := by rw [hul]; rfl
    rw [hcount, hcounters, Line.countBusy, hw.counters, satSucc_eq]
  · have hlive : z.state ≠ .detaching := hd
    have hqueued : (u.line x.line).noticeQueue = (w.countBusy.entryBusy e z hold).noticeQueue := by rw [hul]; rfl
    rw [Line.entryBusy, Station.entryBusy, if_neg hlive, if_neg hlive] at hstations
    rw [Line.entryBusy, if_neg hlive] at hul
    refine ⟨(hqueued.trans hqueue).trans ((if_neg hlive).trans hw.kept.2.1),
      pollDefers_of_deferFor (z := z.busyUntil hold) hk hx rfl hxa ⟨rfl, rfl⟩ hstations hw.kept.2.2.2 hul, ?_⟩
    refine ((congrArg (vget · e) hstations).trans (State.station_focus_same _ _ _ _ _)).trans ?_
    rw [← satSucc_eq, ← satSucc_eq]
    rfl

include hk hx hxa hg hres hw hexec in
/-- DATA where the pool has no entry. -/
theorem poll_starved (hd : k = .data) (hpool : ∀ p ∈ s.pool, p.head = p.tail) : ∃ u, PollGoes s x.line g e x i u
    ∧ u.deviceTime = s.deviceTime ∧ u.pool = s.pool ∧ Returned s u x.line q
    ∧ (u.line x.line).counters =
        { (s.line x.line).counters with poolStarves := min 4294967295 ((s.line x.line).counters.poolStarves + 1) }
    ∧ (x.state ≠ .detaching → (u.line x.line).noticeQueue = (s.line x.line).noticeQueue ∧ PollDefers s x.line a u
        ∧ u.station e = some { x with
            exchanges := min 4294967295 (x.exchanges + 1), lastKind := some .data
            redelivery := true, redeliveries := min 65535 (x.redeliveries + 1), nextDue := s.nowMs }) := by
  subst hd
  let z := x.countExchange (some .data)
  have hclaim : (s.focus x.line e w (some z)).poolClaim = none := by
    unfold State.poolClaim
    split
    · rfl
    · next p hp => exact if_pos (hpool p hp)
  have hscan : (s.focus x.line e w (some z)).scanOutcome x.line e (some z.state == some .detaching) a (.response .data len data) =
      (s.focus x.line e (w.countPoolStarve.entryRedelivery e z s.nowMs) (z.entryRedelivery s.nowMs)).endPoll x.line := by
    rw [← State.scanRedelivery_focus (z := z) hk hx ⟨rfl, rfl⟩ (y := w.countPoolStarve), ← State.focus_modLine, State.scanOutcome, hclaim]
  obtain ⟨hhandled, hcounters, hscanner, hqueue, hslots⟩ := w.countPoolStarve.entryRedelivery_kept e z s.nowMs
  have hreservation : ((s.focus x.line e (w.countPoolStarve.entryRedelivery e z s.nowMs) (z.entryRedelivery s.nowMs)).line
      x.line).scanner.reservation = some q := by
    rw [State.line_focus_same, hscanner]
    exact (congrArg Scanner.reservation hw.kept.2.2.1).trans hres
  have hleaves : PollLeaves w e x (w.countPoolStarve.entryRedelivery e z s.nowMs) (z.entryRedelivery s.nowMs) :=
    ⟨.trans (show w.Handled w.countPoolStarve from rfl) hhandled, hslots, fun h => by
      have hd : z.state = .detaching := h
      rw [Station.entryRedelivery, Line.entryRedelivery, if_pos hd, if_pos hd]
      exact ⟨rfl, rfl, rfl⟩⟩
  obtain ⟨u, hgoes, htime, hpool, hreturned, hstations, sc, hul⟩ := pollGoes_returned hg hw hleaves hscanner
    (hexec.trans (by
      rw [reached_now]
      exact congrArg (fun v : State => Host.Outcome.next (v.modLine x.line Line.unconflicted).react)
        (hscan.trans (State.endPoll_eq hreservation))))
  rw [reached_now] at hstations htime
  refine ⟨u, hgoes, htime, hpool, hreturned, ?_, fun hd => ?_⟩
  · have hcount : (u.line x.line).counters = (w.countPoolStarve.entryRedelivery e z s.nowMs).counters := by rw [hul]; rfl
    rw [hcount, hcounters, Line.countPoolStarve, hw.counters, satSucc_eq]
  · have hlive : z.state ≠ .detaching := hd
    have hqueued : (u.line x.line).noticeQueue = (w.countPoolStarve.entryRedelivery e z s.nowMs).noticeQueue := by rw [hul]; rfl
    rw [Line.entryRedelivery, Station.entryRedelivery, if_neg hlive, if_neg hlive] at hstations
    rw [Line.entryRedelivery, if_neg hlive] at hul
    refine ⟨(hqueued.trans hqueue).trans ((if_neg hlive).trans hw.kept.2.1),
      pollDefers_of_deferFor (z := z.redeliverAt s.nowMs) hk hx rfl hxa ⟨rfl, rfl⟩ hstations hw.kept.2.2.2 hul, ?_⟩
    refine ((congrArg (vget · e) hstations).trans (State.station_focus_same _ _ _ _ _)).trans ?_
    rw [← satSucc_eq, ← satSucc_eq]
    rfl

include hk hx hxa hw hexec in
/-- DATA where the pool has an entry: the poll becomes a delivery. -/
theorem poll_delivers (hd : k = .data) {p : Pool} (hp : s.pool = some p) (hne : p.head ≠ p.tail) : ∃ u, PollGoes s x.line g e x i u
    ∧ u.deviceTime = s.deviceTime ∧ PollDelivers s x.line e x a k u
    ∧ u.pool = some { p with head := (p.head + 1) % 2 ^ p.sizeCode } ∧ u.crings = s.crings
    ∧ (∀ m, m ≠ x.line → u.line m = s.line m)
    ∧ (u.line x.line).scanner = { (s.line x.line).scanner with
        state := .delivering, polled := none
        delivery := some ⟨e, a.addr, p.head, BitVec.ofNat 64 (p.base.toNat + 8 * p.head), data, none, none, none⟩ } := by
  subst hd
  let z := x.countExchange (some .data)
  let s' := { s with pool := some { p with head := nextIndex (ringSize p.sizeCode) p.head } }
  let sc : Scanner := { w.scanner with
    state := .delivering, polled := none, delivery := some ⟨e, a.addr, p.head, p.entryAddr p.head, data, none, none, none⟩ }
  have hclaim : (s.focus x.line e w (some z)).poolClaim = some ((p.head, p.entryAddr p.head), s'.focus x.line e w (some z)) := by
    unfold State.poolClaim
    rw [show (s.focus x.line e w (some z)).pool = some p from hp]
    exact if_neg hne
  have hscanned := State.scanDelivered_focus (s := s') (z := z) hk hx ⟨rfl, rfl⟩ (y := { w with scanner := sc }) hw.kept.1 a
  have hscan : (s.focus x.line e w (some z)).scanOutcome x.line e (some z.state == some .detaching) a (.response .data len data) =
      s'.focus x.line e { w.countDelivered.entryDelivered e z with scanner := sc } (z.polledDelivered a.toggle a.sync s.nowMs) := by
    rw [State.scanOutcome, hclaim]
    dsimp only
    rw [State.focus_modLine]
    exact hscanned.trans (by rw [← Line.entryDelivered_scanner]; rfl)
  have hexec' := hexec.trans (congrArg (fun v : State => Host.Outcome.next (v.modLine x.line Line.unconflicted).react) hscan)
  rw [State.focus_modLine] at hexec'
  have hul := State.line_focus_same s' x.line e ({ w.countDelivered.entryDelivered e z with scanner := sc } : Line).unconflicted
    (z.polledDelivered a.toggle a.sync s.nowMs)
  refine ⟨_, pollGoes_of_line hw (pollLeaves_delivered w e x .data _ _ _) (leads_of_eq hexec' rfl) rfl (by rw [reached_now]; rfl)
    (by rw [reached_now]; rfl) hul, rfl, pollDelivers_of_line hw hxa hul (State.station_focus_same _ _ _ _ _), rfl, rfl,
    fun m hm => State.line_focus_ne _ _ _ _ _ hm, ?_⟩
  rw [hul, ← hw.kept.2.2.1, BitVec.ofNat_add, BitVec.ofNat_toNat, BitVec.setWidth_eq]
  rfl

end Cases

/-- A failure. -/
theorem poll_failed {s : State} {g : LineConfig} {a : Attempt} {i : Instr} {e : EntryId} {x : Station} {q : CRingId} {w : Line} {c : Cause}
    {due n : Nat} {kind : Option RespKind} {next : StationState} {moved : Prop} [Decidable moved] (hxa : x.addr = a.addr)
    (hg : (s.line x.line).config = some g) (hres : (s.line x.line).scanner.reservation = some q)
    (hw : LineHanded g (reached s due).nowUs n (s.line x.line) (.failure c) w) (hc : c ≠ .conflict)
    (hnext : next = (x.move g).getD x.state) (hmoved : moved ↔ x.move g = some .offline)
    (hexec : exec i s = .next ((((reached s due).focus x.line e w (some (x.countExchange kind))).scanOutcome x.line e
      (some x.state == some .detaching) a (.failure c)).modLine x.line Line.unconflicted).react) :
    ∃ u, PollGoes s x.line g e x i u ∧ u.deviceTime = (reached s due).deviceTime ∧ u.pool = s.pool ∧ Returned s u x.line q
      ∧ (u.line x.line).counters = { counted (s.line x.line).counters c with stray := (u.line x.line).counters.stray }
      ∧ (x.state ≠ .detaching →
        (∃ z, u.station e = some z
          ∧ z = { x with
              state := next, failureCount := min 15 (x.failureCount + 1), failures := min 65535 (x.failures + 1)
              lastKind := kind <|> x.lastKind
              exchanges := min 4294967295 (x.exchanges + 1), syncNeeded := z.syncNeeded
              redelivery := x.redelivery && !decide moved
              losses := if moved ∧ x.redelivery = true then min 65535 (x.losses + 1) else x.losses
              nextDue := u.nowMs + if next = .offline then g.probeInterval else x.scanPeriod
              noticePending := z.noticePending, changes := z.changes }
          ∧ (z.syncNeeded = true ↔ x.syncNeeded = true ∨ c = .toggle ∨ moved)
          ∧ Noticed (next ≠ x.state) e x z (s.line x.line).noticeQueue (u.line x.line).noticeQueue)
        ∧ ∀ m, ∀ b ∈ s.slot x.line m, ∃ b' ∈ u.slot x.line m,
          if moved ∧ b.addr = a.addr then OfflineReaches x b b' else b' = b) := by
  let z := x.countExchange kind
  have hscan : ((reached s due).focus x.line e w (some z)).scanOutcome x.line e (some z.state == some .detaching) a (.failure c) =
      ((reached s due).focus x.line e (w.entryFailed e z g) (z.polledFailed g c (reached s due).nowMs)).endPoll x.line := by
    rw [← State.scanFailed_focus (s := reached s due) (x := x) (z := z) ⟨rfl, rfl⟩ hw.kept.1 c]
    cases c with
    | conflict => exact absurd rfl hc
    | _ => rfl
  obtain ⟨hhandled, hcounters, hscanner, hslots⟩ := w.entryFailed_kept e z g
  have hreservation : (((reached s due).focus x.line e (w.entryFailed e z g) (z.polledFailed g c (reached s due).nowMs)).line
      x.line).scanner.reservation = some q := by
    rw [State.line_focus_same, hscanner]
    exact (congrArg Scanner.reservation hw.kept.2.2.1).trans hres
  have hleaves : PollLeaves w e x (w.entryFailed e z g) (z.polledFailed g c (reached s due).nowMs) :=
    pollLeaves_of_map hhandled hslots fun h => by
      have hd : z.state = .detaching := h
      rw [Station.polledFailed, Line.entryFailed, if_pos hd, if_pos hd]
      exact ⟨rfl, rfl, rfl⟩
  obtain ⟨u, hgoes, htime, hpool, hreturned, hstations, sc, hul⟩ := pollGoes_returned hg hw hleaves hscanner
    (hexec.trans (congrArg (fun v : State => Host.Outcome.next (v.modLine x.line Line.unconflicted).react)
        (hscan.trans (State.endPoll_eq hreservation))))
  refine ⟨u, hgoes, htime, hpool, hreturned, ?_, fun hd => ?_⟩
  · have hcount : (u.line x.line).counters = counted { (s.line x.line).counters with stray := n } c := by
      rw [hul]
      exact hcounters.trans hw.counters
    rw [hcount]
    exact counted_stray _ _ _
  have hlive : z.state ≠ .detaching := hd
  have hms : u.nowMs = (reached s due).nowMs := by rw [State.nowMs, State.nowUs, htime]; rfl
  have h := failureTaken_after g c (reached s due).nowMs e z w
  refine ⟨⟨{ z.afterFailure g c (reached s due).nowMs with nextDue := (reached s due).nowMs +
    if (z.afterFailure g c (reached s due).nowMs).state = .offline then g.probeInterval
    else (z.afterFailure g c (reached s due).nowMs).scanPeriod }, ?_, ?_, h.sync.trans ?_, ?_⟩, fun m b hb => ?_⟩
  · exact ((congrArg (vget · e) hstations).trans (State.station_focus_same _ _ _ _ _)).trans (if_neg hlive)
  · have hstate : (z.afterFailure g c (reached s due).nowMs).state = next := by rw [h.fields, hnext]; rfl
    have hredelivery : (z.afterFailure g c (reached s due).nowMs).redelivery = (x.redelivery && !decide moved) := by
      by_cases hm : moved
      · rw [(h.moved (hmoved.mp hm)).1]
        simp [hm]
      · rw [(h.stays (mt hmoved.mpr hm)).1]
        rw [decide_eq_false hm, Bool.not_false, Bool.and_true]
        rfl
    have hlosses : (z.afterFailure g c (reached s due).nowMs).losses =
        if moved ∧ x.redelivery = true then min 65535 (x.losses + 1) else x.losses := by
      by_cases hm : moved
      · rw [(h.moved (hmoved.mp hm)).2.2]
        simp only [hm, true_and]
        rfl
      · rw [(h.stays (mt hmoved.mpr hm)).2.2]
        simp only [hm, false_and, if_false]
        rfl
    refine (congrArg (fun v : Station => { v with nextDue := (reached s due).nowMs +
      if (z.afterFailure g c (reached s due).nowMs).state = StationState.offline then g.probeInterval
      else (z.afterFailure g c (reached s due).nowMs).scanPeriod }) h.fields).trans ?_
    rw [hstate, Station.afterFailure_scanPeriod, hredelivery, hlosses, ← hms, hnext, ← satSucc_eq 4294967295 x.exchanges]
    rfl
  · rw [hmoved]
    rfl
  · have hqueue : (u.line x.line).noticeQueue = (w.afterFailure e z g).noticeQueue := by
      rw [hul, Line.entryFailed, if_neg hlive]
      rfl
    rw [hnext, hqueue, ← hw.kept.2.1]
    exact h.noticed
  · have hslot : u.slot x.line m = (w.entryFailed e z g).slot m := by rw [State.slot, hul]; rfl
    have hb' : w.slot m = some b := (congrArg (vget · m) hw.kept.2.2.2).trans hb
    rw [hslot, hslots, hb']
    refine ⟨_, rfl, ?_⟩
    beta_reduce
    by_cases hm : moved
    · rw [if_pos (show z.move g = some .offline from hmoved.mp hm)]
      split
      · next hb => exact offlineReaches_offlineSlot x (hb.2.trans hxa.symm)
      · next hb => exact if_neg fun ha => hb ⟨hm, ha.trans hxa⟩
    · rw [if_neg (show z.move g ≠ some .offline from mt hmoved.mpr hm), if_neg fun h => hm h.1]

/-- Settles O45. -/
theorem scanPollOutcome : Obligations.ScanPollOutcome := by
  intro s l g a i e x q sync hw hg hrun ha hk hreq hstate hpolled hres hx hl hxa goes n deferred
  subst hl
  refine ⟨fun rx k len data hframe hj => ?_, fun c due kind hfails => ?_⟩
  · intro seen delivers
    obtain ⟨w, hline, hexec⟩ := pollAttempt_ends hg ha hk hreq hpolled hx rfl hxa (o := .response k len data) nofun
      (endsWith_frame hw hg hrun ha hframe hj)
    rw [reached_now] at hexec
    by_cases hbusy : k = .busy
    · obtain ⟨u, hgoes, htime, hpool, hreturned, hcounters, hlive⟩ := poll_busy hk hx hxa hg hres hline hexec hbusy
      subst hbusy
      exact ⟨u, hgoes, htime, fun _ => ⟨hpool, hreturned⟩, fun h => (by simp at h), fun _ => ⟨hcounters, hlive⟩, nofun, nofun⟩
    by_cases hdata : k = .data
    · by_cases hstarved : ∀ p ∈ s.pool, p.head = p.tail
      · obtain ⟨u, hgoes, htime, hpool, hreturned, hcounters, hlive⟩ := poll_starved hk hx hxa hg hres hline hexec hdata hstarved
        subst hdata
        exact ⟨u, hgoes, htime, fun h => absurd rfl h, fun h => (by simp at h), nofun, fun _ p hp hne => absurd (hstarved p hp) hne,
          fun _ _ => ⟨hpool, hreturned, hcounters, hlive⟩⟩
      · obtain ⟨p, hp, hne⟩ : ∃ p ∈ s.pool, p.head ≠ p.tail := by simpa using hstarved
        obtain ⟨u, hgoes, htime, hdelivers, hpool, hcrings, hothers, hscanner⟩ := poll_delivers hk hx hxa hline hexec hdata hp hne
        subst hdata
        refine ⟨u, hgoes, htime, fun h => absurd rfl h, fun h => (by simp at h), nofun, fun _ p' hp' _ => ?_, fun _ h => absurd (h p hp) hne⟩
        obtain rfl : p = p' := Option.some.inj (hp.symm.trans hp')
        exact ⟨hdelivers, hpool, hcrings, hothers, hscanner⟩
    · have hanswer : k = .done ∨ k = .empty ∨ k = .refused := by cases k <;> simp_all
      obtain ⟨u, hgoes, htime, hpool, hreturned, hdelivers⟩ := poll_delivered hk hx hxa hg hres hline hexec hanswer
      exact ⟨u, hgoes, htime, fun _ => ⟨hpool, hreturned⟩, fun _ => hdelivers, fun h => absurd h hbusy, fun h => absurd h hdata,
        fun h => absurd h hdata⟩
  · intro count next moved
    have hc := fails_ne_conflict hfails
    have hnext : next = (x.move g).getD x.state :=
      (failureMove_getD g x.state count).trans
        (by rw [Station.move, show satSucc Config.failureCountMax x.failureCount = count from satSucc_eq _ _])
    have hmoved : moved ↔ x.move g = some .offline := by
      rw [← x.moved_iff g, ← hnext]
    obtain ⟨stray, hends⟩ := endsWith_fails hw hg hrun ha hfails
    obtain ⟨w, hline, hexec⟩ := pollAttempt_ends hg ha hk hreq hpolled hx rfl hxa (by simpa using hc) hends
    exact poll_failed hxa hg hres hline hc hnext hmoved hexec

end Sys2Proof.Machine

/-! # Conflicts (R57, R75 to R77) -/

namespace Sys2Proof.Machine

open Sys2Proof.Claims

/-! ## The line and the Scanner -/

/-- The line of an attempt at its entry to SETTLE. -/
theorem Line.Heard.handOff {x y : Line} {n : Nat} (h : x.Heard n y) (now : Nat) (o : AttemptOutcome) :
    (y.handOff now o).conflictCount = x.conflictCount ∧ (y.handOff now o).run = x.run ∧ (y.handOff now o).phase = some .settle
    ∧ (y.handOff now o).attempt = none ∧ (y.handOff now o).pins = ⟨false, false, false, [], x.pins.rxd⟩
    ∧ (y.handOff now o).gracefulStop = x.gracefulStop := by
  obtain ⟨r, rx, t, p, sh, _, rfl⟩ := h
  rw [Line.handOff_eq]
  exact ⟨rfl, rfl, rfl, rfl, rfl, rfl⟩

/-- The end of a poll reaches the Scanner of its line, and no more than places of completion rings beyond. -/
theorem State.endPoll_frame (s : State) (l : LineId) : OnlyLine s (s.endPoll l) l ∧ (s.endPoll l).stations = s.stations
    ∧ (s.endPoll l).deviceTime = s.deviceTime
    ∧ (s.endPoll l).line l = { s.line l with scanner := ((s.endPoll l).line l).scanner }
    ∧ ((s.endPoll l).line l).scanner.state = .idle := by
  cases hq : (s.line l).scanner.reservation with
  | some q =>
    rw [State.endPoll_eq hq]
    have hl := s.line_pollReturned_same l q
    exact ⟨s.pollReturned_onlyLine l q, rfl, rfl, by rw [hl], by rw [hl]⟩
  | none =>
    have e : s.endPoll l = s.modLine l fun x => { x with
        scanner := { (s.line l).scanner with state := .idle, reservation := none, polled := none } } := by
      unfold State.endPoll
      dsimp only
      rw [hq]
    rw [e]
    have hl := State.line_modLine_same s l fun x => { x with
        scanner := { (s.line l).scanner with state := .idle, reservation := none, polled := none } }
    exact ⟨.modLine s l _, rfl, rfl, by rw [hl], by rw [hl]⟩

/-- The drop of a poll, whatever the Scanner holds. -/
theorem State.dropPoll_onlyLine (s : State) (l : LineId) : OnlyLine s (s.dropPoll l) l ∧ (s.dropPoll l).stations = s.stations
    ∧ (s.dropPoll l).deviceTime = s.deviceTime
    ∧ (s.dropPoll l).line l = { s.line l with scanner := ((s.dropPoll l).line l).scanner } := by
  have hcases : s.dropPoll l = s ∨ ∃ q, s.dropPoll l = s.pollReturned l q := by
    unfold State.dropPoll
    dsimp only
    split
    · exact .inr ⟨_, rfl⟩
    · exact .inr ⟨_, rfl⟩
    · exact .inl rfl
  rcases hcases with e | ⟨q, e⟩
  · rw [e]
    exact ⟨.refl s l, rfl, rfl, rfl⟩
  · rw [e]
    exact ⟨s.pollReturned_onlyLine l q, rfl, rfl, by rw [s.line_pollReturned_same]⟩

theorem State.dropPoll_idle {s : State} {l : LineId} (h : (s.line l).scanner.state = .idle) : s.dropPoll l = s := by
  unfold State.dropPoll
  simp [h]

/-- A line fault of a line without an attempt. -/
theorem State.faultLine_unattempted {s : State} {l : LineId} (h : (s.line l).attempt = none) (cause : LineFault) :
    s.faultLine l cause = (s.dropPoll l).modLine l fun x =>
      ({ x.mapSlots (·.cutOff .lineFault) with
        read := x.read.map fun r => { r with events := r.events ++ [.decided .lineFault] } } : Line).enterFaulted cause := by
  have e : s.abandonAttempt l .lineFault true = s := by rw [State.abandonAttempt, h]
  rw [State.faultLine, State.endWork, e, State.modLine, State.modLine, State.line_setLine_same, State.setLine_setLine]
  rfl

/-! ## What a conflict makes of the slot, the line and the station -/

/-- What a slot becomes whose attempt has met a CONFLICT, `st` being its station (R57, R58). -/
def Slot.conflicted (y : Slot) (graceful : Bool) (st : Option Station) : Slot :=
  let b := y.countAttempt (.failure .conflict)
  if y.lastAttempt = true ∨ st.map (·.state) = some .detaching then b.finishCause .lineError .conflict
  else if b.retryLeft = true then b.enterReady graceful st
  else b.finishCause .lineError .conflict

/-- The entry of a scan poll that has met a CONFLICT (R35, R108). -/
def Station.pollConflicted (x : Station) (g : LineConfig) (now : Nat) : Station :=
  { x.countExchange none with nextDue := now + if x.state = .offline then g.probeInterval else x.scanPeriod }

/-- The state `r` in which the requester of line `l`'s attempt has taken its CONFLICT; `h` is the line at its entry to SETTLE. -/
structure State.ConflictTaken (s : State) (l : LineId) (a : Attempt) (g : LineConfig) (h : Line) (r : State) : Prop where
  only : OnlyLine s r l
  time : r.deviceTime = s.deviceTime
  line : r.line l = { h with slots := (r.line l).slots, noticeQueue := (r.line l).noticeQueue, scanner := (r.line l).scanner }
  slots : ∀ m, a.requester ≠ .slot m → r.slot l m = h.slot m
  decided : ∀ j, a.requester = .slot j → r.slot l j = (h.slot j).map (·.conflicted h.gracefulStop (s.keyed l a.addr))
  miss : ∀ e, s.lookup l a.addr ≠ some e → r.station e = s.station e
  freed : ∀ e x, s.lookup l a.addr = some e → s.station e = some x → x.state = .detaching →
    r.station e = none ∧ (r.line l).noticeQueue = h.noticeQueue.filter (· ≠ e)
  kept : ∀ e x, s.lookup l a.addr = some e → s.station e = some x → x.state ≠ .detaching →
    r.station e = some (if a.requester = .scanner then x.pollConflicted g s.nowMs else x.countExchange none)

/-- A slot's decision on a CONFLICT. -/
theorem Slot.conflicted_eq {v : SlotView} {y : Slot} {st : Option Station} {graceful : Bool}
    (hretry : v.noRetry = true ↔ y.lastAttempt = true ∨ st.map (·.state) = some .detaching) (hwent : v.wentOffline = false)
    (hready : st.map (·.state) ≠ some .detaching →
      (y.countAttempt (.failure .conflict)).enterReady v.graceful v.station = (y.countAttempt (.failure .conflict)).enterReady graceful st) :
    (y.countAttempt (.failure .conflict)).decideOutcome v (.failure .conflict) = y.conflicted graceful st := by
  rw [Slot.decideOutcome_failure, hwent, Slot.conflicted]
  by_cases h : y.lastAttempt = true ∨ st.map (·.state) = some .detaching
  · exact (if_pos (hretry.mpr h)).trans (if_pos h).symm
  · rw [if_neg (mt hretry.mp h), hready fun hd => h (.inr hd)]
    exact (if_neg Bool.false_ne_true).trans (if_neg h).symm

theorem Line.slotView_noRetry_option {y : Line} {j : SlotId} {b : Slot} (hb : y.slot j = some b) (st : Option StationState)
    (z : Option Station) : (y.slotView st z j).noRetry = true ↔ st = some .detaching ∨ b.lastAttempt = true := by
  simp [Line.slotView, hb]

/-- A broadcast, or a slot whose station has no entry. -/
theorem conflictTaken_noEntry {s : State} {l : LineId} {a : Attempt} {j : SlotId} (hreq : a.requester = .slot j)
    (hn : s.lookup l a.addr = none) (g : LineConfig) (h : Line) : s.ConflictTaken l a g h
      (((s.setLine l h).countExchange l a.addr none).handToRequester l a (.failure .conflict)) := by
  have hcount : (s.setLine l h).countExchange l a.addr none = s.setLine l h := by
    rw [State.countExchange, show (s.setLine l h).lookup l a.addr = none from hn]
  have hslot := State.slotOutcome_noEntry hn h (.failure .conflict) j
  have hkeyed : s.keyed l a.addr = none := State.keyed_eq_none.mpr hn
  rw [hcount, State.handToRequester, hreq]
  dsimp only
  rw [hslot]
  refine ⟨.setLine s l _, rfl, ?_, fun m hm => ?_, fun m hm => ?_, fun e _ => rfl, fun e x he => ?_, fun e x he => ?_⟩
  · rw [State.line_setLine_same]
    rfl
  · have hne : m ≠ j := fun e => hm (e ▸ hreq)
    rw [State.slot, State.line_setLine_same]
    exact (Line.slot_modSlot_ne _ _ hne).trans (Line.slot_modSlot_ne _ _ hne)
  · obtain rfl : j = m := by simpa [hreq] using hm
    rw [State.slot, State.line_setLine_same, Line.slot_modSlot_same, hkeyed]
    have hafter : ((h.modSlot j (·.countAttempt (.failure .conflict))).countHostResponse (.failure .conflict)).slot j =
        (h.slot j).map (·.countAttempt (.failure .conflict)) := Line.slot_modSlot_same _ _ _
    cases hy : h.slot j with
    | none => rw [hafter, hy]; rfl
    | some y =>
      rw [hy] at hafter
      rw [hafter]
      refine congrArg some (Slot.conflicted_eq ?_ rfl fun _ => rfl)
      exact (Line.slotView_noRetry_option hafter none none).trans (by simp [or_comm, Slot.countAttempt])
  · rw [hn] at he
    cases he
  · rw [hn] at he
    cases he

/-- The line once the entry of a slot's attempt has met a CONFLICT: an entry in DETACHING leaves its queue (R34). -/
def Line.entryConflicted (y : Line) (e : EntryId) (z : Station) : Line := if z.state = .detaching then y.unqueued e else y

/-- The entry of a slot's attempt that has met a CONFLICT, freed in DETACHING (R34). -/
def Station.entryConflicted (z : Station) : Option Station := if z.state = .detaching then none else some z

theorem State.entryOutcome_conflict (s : State) (e : EntryId) (y : Line) (z : Station) (a : Attempt) :
    (s.focus z.line e y (some z)).entryOutcome e (some z.state == some .detaching) a (.failure .conflict) =
      s.focus z.line e (y.entryConflicted e z) z.entryConflicted := by
  unfold Line.entryConflicted Station.entryConflicted
  by_cases hd : z.state = .detaching
  · rw [State.entryOutcome_detaching _ _ _ _ hd, State.freeEntry_focus, if_pos hd, if_pos hd]
  · rw [if_neg hd, if_neg hd]
    exact if_neg (by simpa using hd)

theorem Line.entryConflicted_kept (y : Line) (e : EntryId) (z : Station) : y.Handled (y.entryConflicted e z)
    ∧ (y.entryConflicted e z).counters = y.counters ∧ ∀ m, (y.entryConflicted e z).slot m = y.slot m := by
  unfold Line.entryConflicted
  split <;> exact ⟨rfl, rfl, fun _ => rfl⟩

theorem Station.entryConflicted_wentOffline (z : Station) (y : Line) (j : SlotId) :
    (y.slotView (some z.state) z.entryConflicted j).wentOffline = false := by
  unfold Line.slotView Station.entryConflicted
  split
  · rfl
  · simp

theorem Line.Handled.withScanner (y : Line) (sc : Scanner) : y.Handled { y with scanner := sc } := rfl

theorem Line.Handled.conflicted {y w : Line} (h : y.Handled w) (hcounters : w.counters = y.counters) :
    w = { y with slots := w.slots, noticeQueue := w.noticeQueue, scanner := w.scanner } := by
  rw [Line.Handled, hcounters] at h
  exact h

/-- A slot whose station has an entry. -/
theorem conflictTaken_entry {s : State} {a : Attempt} {j : SlotId} {e : EntryId} {x : Station} (hreq : a.requester = .slot j)
    (hk : s.KeysOk) (hx : s.station e = some x) (hxa : x.addr = a.addr) (g : LineConfig) (h : Line) : s.ConflictTaken x.line a g h
      (((s.setLine x.line h).countExchange x.line a.addr none).handToRequester x.line a (.failure .conflict)) := by
  let z := x.countExchange none
  have hlookup : s.lookup x.line a.addr = some e := hxa ▸ State.lookup_of_station hk hx
  have hkeyed : s.keyed x.line a.addr = some x := hxa ▸ State.keyed_of_station hk hx
  have hcount : (s.setLine x.line h).countExchange x.line a.addr none = s.focus x.line e h (some z) := by
    rw [State.setLine_focus hx, State.countExchange, ← hxa, State.lookup_focus hk hx rfl _ ⟨rfl, rfl⟩]
    dsimp only
    rw [State.modStation, State.station_focus_same, Option.map_some, State.focus_setStation]
  have hz : ∀ w ∈ z.entryConflicted, w.line = x.line ∧ w.addr = x.addr := fun w hw => by
    unfold Station.entryConflicted at hw
    split at hw
    · cases hw
    · cases hw
      exact ⟨rfl, rfl⟩
  have hentry := s.entryOutcome_conflict e (h.modSlot j (·.countAttempt (.failure .conflict))) z a
  have hslot := State.slotOutcome_focus (o := .failure .conflict) (j := j) (y := h) hk hx rfl hxa (z := z) ⟨rfl, rfl⟩ hz hentry
  rw [hcount, State.handToRequester, hreq]
  dsimp only
  rw [hslot]
  obtain ⟨hhandled, hcounters, hslots⟩ := (h.modSlot j (·.countAttempt (.failure .conflict))).entryConflicted_kept e z
  refine ⟨.trans (.setLine s _ _) (.setStation _ _ _ _), rfl, ?_, fun m hm => ?_, fun m hm => ?_, fun f hf => ?_, fun f y hf hy hd => ?_,
    fun f y hf hy hd => ?_⟩
  · rw [State.line_focus_same]
    exact (Line.Handled.trans (.modSlot _ _ _) (.trans hhandled (.modSlot _ _ _))).conflicted hcounters
  · have hne : m ≠ j := fun e => hm (e ▸ hreq)
    rw [State.slot_focus, Line.slot_modSlot_ne _ _ hne, hslots, Line.slot_modSlot_ne _ _ hne]
  · obtain rfl : j = m := by simpa [hreq] using hm
    rw [State.slot_focus, Line.slot_modSlot_same, hkeyed, hslots, Line.slot_modSlot_same]
    cases hy : h.slot j with
    | none => rfl
    | some y =>
      have hafter : ((h.modSlot j (·.countAttempt (.failure .conflict))).entryConflicted e z).slot j =
          some (y.countAttempt (.failure .conflict)) := by
        rw [hslots, Line.slot_modSlot_same, hy]
        rfl
      refine congrArg some (Slot.conflicted_eq ((Line.slotView_noRetry_option hafter _ _).trans ?_) ?_ fun hd => ?_)
      · simp [or_comm, Slot.countAttempt]
        rfl
      · exact z.entryConflicted_wentOffline _ _
      · have hlive : z.entryConflicted = some z := if_neg fun h => hd (congrArg some h)
        rw [Line.slotView, hhandled.gracefulStop, hlive]
        rfl
  · exact State.station_focus_ne _ _ _ _ _ fun h => hf (h ▸ hlookup)
  · obtain rfl : e = f := Option.some.inj (hlookup.symm.trans hf)
    obtain rfl : x = y := Option.some.inj (hx.symm.trans hy)
    have hfreed : z.state = .detaching := hd
    rw [State.station_focus_same, State.line_focus_same, Station.entryConflicted, Line.entryConflicted, if_pos hfreed, if_pos hfreed]
    exact ⟨rfl, rfl⟩
  · obtain rfl : e = f := Option.some.inj (hlookup.symm.trans hf)
    obtain rfl : x = y := Option.some.inj (hx.symm.trans hy)
    rw [State.station_focus_same, if_neg (by simp [hreq])]
    exact if_neg (show z.state ≠ .detaching from hd)

/-- The entry of a scan poll that has met a CONFLICT, freed in DETACHING (R34, R108). -/
def Station.pollEntry (x : Station) (g : LineConfig) (now : Nat) : Option Station :=
  if x.state = .detaching then none else some (x.pollConflicted g now)

section Poll

variable {s : State} {a : Attempt} {e : EntryId} {x : Station} {b : Bool} {h : Line} {g : LineConfig} (hreq : a.requester = .scanner)
  (hk : s.KeysOk) (hx : s.station e = some x) (hxa : x.addr = a.addr) (hpolled : h.scanner.polled = some (e, b)) (hg : h.config = some g)

include hreq hk hx hxa hpolled hg in
/-- A scan poll that meets a CONFLICT takes it in the line and the entry, and ends. -/
theorem handToRequester_scanner : ((s.setLine x.line h).countExchange x.line a.addr none).handToRequester x.line a (.failure .conflict) =
    (s.focus x.line e (h.entryConflicted e x) (x.pollEntry g s.nowMs)).endPoll x.line := by
  let z := x.countExchange none
  have hcount : (s.setLine x.line h).countExchange x.line a.addr none = s.focus x.line e h (some z) := by
    rw [State.setLine_focus hx, State.countExchange, ← hxa, State.lookup_focus hk hx rfl _ ⟨rfl, rfl⟩]
    dsimp only
    rw [State.modStation, State.station_focus_same, Option.map_some, State.focus_setStation]
  have hentry : (if (some x.state == some .detaching) = true then (s.focus x.line e h (some z)).freeDetaching e
      else (s.focus x.line e h (some z)).scheduleNext e) = s.focus x.line e (h.entryConflicted e x) (x.pollEntry g s.nowMs) := by
    unfold Line.entryConflicted Station.pollEntry
    by_cases hd : x.state = .detaching
    · rw [if_pos hd, if_pos hd, if_pos (by simpa using hd), State.freeDetaching_focus (x := x) (z := z) ⟨rfl, rfl⟩]
    · rw [if_neg hd, if_neg hd, if_neg (by simpa using hd)]
      exact State.scheduleNext_focus s e h z rfl hg
  rw [hcount, State.handToRequester, hreq]
  dsimp only
  rw [State.line_focus_same, hpolled]
  dsimp only
  rw [State.station_focus_same]
  exact congrArg (State.endPoll · x.line) hentry

include hreq hk hx hxa hpolled hg in
theorem conflictTaken_scanner : s.ConflictTaken x.line a g h
    (((s.setLine x.line h).countExchange x.line a.addr none).handToRequester x.line a (.failure .conflict)) := by
  have hlookup : s.lookup x.line a.addr = some e := hxa ▸ State.lookup_of_station hk hx
  rw [handToRequester_scanner hreq hk hx hxa hpolled hg]
  obtain ⟨hhandled, hcounters, hslots⟩ := h.entryConflicted_kept e x
  obtain ⟨honly, hstations, htime, hline, -⟩ := (s.focus x.line e (h.entryConflicted e x) (x.pollEntry g s.nowMs)).endPoll_frame x.line
  have hstation : ∀ f, ((s.focus x.line e (h.entryConflicted e x) (x.pollEntry g s.nowMs)).endPoll x.line).station f =
      (s.focus x.line e (h.entryConflicted e x) (x.pollEntry g s.nowMs)).station f := fun f => congrArg (vget · f) hstations
  rw [State.line_focus_same] at hline
  have hslot : ∀ m, ((s.focus x.line e (h.entryConflicted e x) (x.pollEntry g s.nowMs)).endPoll x.line).slot x.line m = h.slot m := fun m => by
    rw [State.slot, hline]
    exact hslots m
  refine ⟨.trans (.trans (.setLine s _ _) (.setStation _ _ _ _)) honly, htime, ?_, fun m _ => hslot m, fun m hm => (nomatch hreq.symm.trans hm),
    fun f hf => ?_, fun f y hf hy hd => ?_, fun f y hf hy hd => ?_⟩
  · rw [hline]
    exact (hhandled.trans (.withScanner _ _)).conflicted hcounters
  · rw [hstation]
    exact State.station_focus_ne _ _ _ _ _ fun h => hf (h ▸ hlookup)
  · obtain rfl : e = f := Option.some.inj (hlookup.symm.trans hf)
    obtain rfl : x = y := Option.some.inj (hx.symm.trans hy)
    rw [hstation, State.station_focus_same, hline, Station.pollEntry, Line.entryConflicted, if_pos hd, if_pos hd]
    exact ⟨rfl, rfl⟩
  · obtain rfl : e = f := Option.some.inj (hlookup.symm.trans hf)
    obtain rfl : x = y := Option.some.inj (hx.symm.trans hy)
    rw [hstation, State.station_focus_same, if_pos hreq]
    exact if_neg hd

include hreq hk hx hxa hpolled hg in
/-- The reservation of a scan poll that meets a CONFLICT is returned. -/
theorem conflictReturned_scanner {q : CRingId} (hres : h.scanner.reservation = some q) (hscanner : h.scanner = (s.line x.line).scanner)
    (hconfig : h.config = (s.line x.line).config) : Returned s
      (((s.setLine x.line h).countExchange x.line a.addr none).handToRequester x.line a (.failure .conflict)) x.line q := by
  have hkept : (h.entryConflicted e x).scanner = h.scanner ∧ (h.entryConflicted e x).config = h.config := by
    unfold Line.entryConflicted
    split <;> exact ⟨rfl, rfl⟩
  have hreservation : ((s.focus x.line e (h.entryConflicted e x) (x.pollEntry g s.nowMs)).line x.line).scanner.reservation = some q := by
    rw [State.line_focus_same, hkept.1, hres]
  rw [handToRequester_scanner hreq hk hx hxa hpolled hg, State.endPoll_eq hreservation]
  exact returned_of_focus (hkept.1.trans hscanner) (hkept.2.trans hconfig) (State.returned_pollReturned _ _ _)

end Poll

/-! ## The third conflict in a row (R71, R77) -/

/-- What a fault of the line makes of a slot, where there is one (R61). -/
def faultSlot (third : Prop) [Decidable third] (b : Slot) : Slot := if third then b.cutOff .lineFault else b

/-- The state `u` in which a CONFLICT taken in `r` has been counted, and has faulted the line `l` where it is the third in a row; `h` is the line
at its entry to SETTLE. -/
structure State.ConflictCounted (l : LineId) (h : Line) (third : Prop) [Decidable third] (r u : State) : Prop where
  only : OnlyLine r u l
  time : u.deviceTime = r.deviceTime
  stations : u.stations = r.stations
  slots : ∀ m, u.slot l m = (r.slot l m).map (faultSlot third)
  line : (u.line l).counters = h.counters ∧ (u.line l).conflictCount = h.conflictCount + 1 ∧ (u.line l).attempt = none
    ∧ (u.line l).pins = .quiet h.pins.rxd ∧ (u.line l).noticeQueue = (r.line l).noticeQueue
  goes : ¬ third → (u.line l).phase = h.phase ∧ (u.line l).run = h.run
  faults : third → (u.line l).run = .faulted ∧ (u.line l).phase = none ∧ (u.line l).faultCause = some .conflict
    ∧ (u.line l).lastFault = some .conflict ∧ (u.line l).linePending = true
  idle : (r.line l).scanner.state = .idle → u.crings = r.crings ∧ (∀ m, (u.line m).scanner = (r.line m).scanner)
    ∧ ∀ m, m ≠ l → u.line m = r.line m

theorem conflictCounted_line {r : State} {l : LineId} {h : Line}
    (hline : r.line l = { h with slots := (r.line l).slots, noticeQueue := (r.line l).noticeQueue, scanner := (r.line l).scanner })
    (hattempt : h.attempt = none) (hpins : h.pins = .quiet h.pins.rxd) : State.ConflictCounted l h False r
      (r.modLine l (Line.countConflict (.failure .conflict))) := by
  have hl := State.line_modLine_same r l (Line.countConflict (.failure .conflict))
  have hm : ∀ m, m ≠ l → (r.modLine l (Line.countConflict (.failure .conflict))).line m = r.line m := fun m hm => State.line_modLine_ne _ _ hm
  refine ⟨.modLine r l _, rfl, rfl, fun m => ?_, ?_, fun _ => ?_, False.elim, fun _ => ⟨rfl, fun m => ?_, hm⟩⟩
  · rw [State.slot, hl]
    exact Option.map_id'.symm
  · rw [hl, Line.countConflict, if_pos rfl, hline]
    exact ⟨rfl, rfl, hattempt, hpins, rfl⟩
  · rw [hl, Line.countConflict, hline]
    exact ⟨rfl, rfl⟩
  · by_cases e : m = l
    · rw [e, hl]
      rfl
    · rw [hm m e]

theorem State.ConflictCounted.fault {l : LineId} {h : Line} {r t : State} (ht : State.ConflictCounted l h False r t) :
    State.ConflictCounted l h True r (t.faultLine l .conflict) := by
  obtain ⟨hcounters, hcount, hattempt, hpins, hqueue⟩ := ht.line
  obtain ⟨honly, hstations, htime, hline⟩ := t.dropPoll_onlyLine l
  rw [State.faultLine_unattempted hattempt]
  generalize hf : (fun x : Line => ({ x.mapSlots (·.cutOff .lineFault) with
    read := x.read.map fun r => { r with events := r.events ++ [.decided .lineFault] } } : Line).enterFaulted .conflict) = f
  have hl := State.line_modLine_same (t.dropPoll l) l f
  have hslots : ∀ m, (f ((t.dropPoll l).line l)).slot m = (t.slot l m).map (·.cutOff .lineFault) := fun m => by
    rw [← hf, hline]
    exact Line.slot_mapSlots _ _ _
  have hkept : (f ((t.dropPoll l).line l)).counters = (t.line l).counters ∧ (f ((t.dropPoll l).line l)).conflictCount = (t.line l).conflictCount
      ∧ (f ((t.dropPoll l).line l)).attempt = none ∧ (f ((t.dropPoll l).line l)).pins = .quiet (t.line l).pins.rxd
      ∧ (f ((t.dropPoll l).line l)).noticeQueue = (t.line l).noticeQueue := by
    rw [← hf, hline]
    exact ⟨rfl, rfl, rfl, rfl, rfl⟩
  obtain ⟨kcounters, kcount, kattempt, kpins, kqueue⟩ := hkept
  refine ⟨ht.only.trans (honly.trans (.modLine _ l f)), htime.trans ht.time, hstations.trans ht.stations, fun m => ?_, ?_,
    fun h => absurd trivial h, fun _ => ?_, fun hidle => ?_⟩
  · rw [State.slot, hl, hslots, ht.slots, Option.map_map]
    rfl
  · rw [hl, kcounters, kcount, kattempt, kpins, kqueue]
    exact ⟨hcounters, hcount, rfl, by rw [hpins]; rfl, hqueue⟩
  · rw [hl, ← hf]
    exact ⟨rfl, rfl, rfl, rfl, rfl⟩
  · obtain ⟨hcrings, hscanner, hothers⟩ := ht.idle hidle
    have hdrop : t.dropPoll l = t := State.dropPoll_idle (by rw [hscanner, hidle])
    have hne : ∀ m, m ≠ l → ((t.dropPoll l).modLine l f).line m = t.line m := fun m hm => by
      rw [State.line_modLine_ne _ _ hm, hdrop]
    refine ⟨by rw [hdrop]; exact hcrings, fun m => ?_, fun m hm => (hne m hm).trans (hothers m hm)⟩
    by_cases e : m = l
    · rw [e, hl, ← hf, hdrop]
      exact hscanner l
    · rw [hne m e, hscanner]

theorem State.ConflictCounted.of_true {l : LineId} {h : Line} {p : Prop} [Decidable p] {r u : State} (hp : p)
    (hc : State.ConflictCounted l h True r u) : State.ConflictCounted l h p r u := by
  obtain rfl : p = True := eq_true hp
  convert hc

theorem State.ConflictCounted.of_false {l : LineId} {h : Line} {p : Prop} [Decidable p] {r u : State} (hp : ¬ p)
    (hc : State.ConflictCounted l h False r u) : State.ConflictCounted l h p r u := by
  obtain rfl : p = False := eq_false hp
  convert hc

/-- An attempt that ends in a CONFLICT: its requester takes it, and the line counts it. -/
theorem conflict_ends {s : State} {l : LineId} {y : Line} {a : Attempt} {x : Line} {n : Nat} (hy : x.Heard n y) (ha : y.attempt = some a)
    {r : State} {h : Line} (hh : h = y.handOff s.nowUs (.failure .conflict))
    (hr : r = ((s.setLine l h).countExchange l a.addr none).handToRequester l a (.failure .conflict))
    (hline : r.line l = { h with slots := (r.line l).slots, noticeQueue := (r.line l).noticeQueue, scanner := (r.line l).scanner }) :
    State.ConflictCounted l h (3 ≤ x.conflictCount + 1) r ((s.setLine l y).endAttempt l (.failure .conflict) none) := by
  obtain ⟨hcount, _, _, hattempt, hpins, _⟩ := hy.handOff s.nowUs (.failure .conflict)
  rw [← hh] at hcount hattempt hpins
  have hcounted := conflictCounted_line hline hattempt (by rw [hpins]; rfl)
  have hn : ((r.modLine l (Line.countConflict (.failure .conflict))).line l).conflictCount = x.conflictCount + 1 :=
    hcounted.line.2.1.trans (congrArg (· + 1) hcount)
  rw [State.endAttempt_setLine ha, ← hh, ← hr]
  dsimp only
  rw [hn]
  by_cases h3 : 3 ≤ x.conflictCount + 1
  · exact .of_true h3 (by rw [if_pos (show Config.conflictLimit ≤ _ from h3)]; exact hcounted.fault)
  · exact .of_false h3 (by rw [if_neg (show ¬ Config.conflictLimit ≤ _ from h3)]; exact hcounted)

/-! ## The slot in the end -/

/-- A slot that was to enter READY when the third conflict faults its line: LINE_FAULT, or ABORTED before (R61, R166). -/
theorem finished_faulted (y : Slot) (graceful : Bool) (st : Option Station) :
    (graceful = true ∧ (∃ v ∈ st, v.redelivery = true) → Finished ((y.enterReady graceful st).cutOff .lineFault) .aborted)
    ∧ (¬ (graceful = true ∧ ∃ v ∈ st, v.redelivery = true) → Finished ((y.enterReady graceful st).cutOff .lineFault) .lineFault) := by
  cases st with
  | none => exact ⟨fun ⟨_, v, hv, _⟩ => (nomatch hv), fun _ => ⟨rfl, rfl⟩⟩
  | some v =>
    have haborts : (graceful = true ∧ ∃ w ∈ some v, w.redelivery = true) ↔ (graceful && v.redelivery) = true := by simp
    rw [haborts]
    unfold Slot.enterReady
    dsimp only
    refine ⟨fun h => ?_, fun h => ?_⟩
    · rw [if_pos h]
      exact ⟨rfl, rfl⟩
    · rw [if_neg h]
      split <;> exact ⟨rfl, rfl⟩

theorem Slot.cutOff_entered (y : Slot) (graceful : Bool) (st : Option Station) : (y.enterReady graceful st).cutOff .lineFault =
    { y with state := ((y.enterReady graceful st).cutOff .lineFault).state
             outcome := ((y.enterReady graceful st).cutOff .lineFault).outcome } := by
  unfold Slot.enterReady
  split
  · rfl
  · split
    · rfl
    · split <;> rfl

/-- What a slot becomes whose attempt has met a CONFLICT (R57, R58, R61). -/
theorem conflictedSlot_decides {s : State} {l : LineId} {y : Slot} {graceful : Bool} {st : Option Station} {noRetry aborts third : Prop}
    [Decidable noRetry] [Decidable aborts] [Decidable third]
    (hno : noRetry ↔ y.lastAttempt = true ∨ (∃ v ∈ st, v.state = .detaching) ∨ y.sub.retry.toNat ≤ y.attempts)
    (haborts : aborts ↔ graceful = true ∧ ∃ v ∈ st, v.redelivery = true)
    (hready : EnteredReady s l ((y.countAttempt (.failure .conflict)).enterReady graceful st)) :
    let b := faultSlot third (y.conflicted graceful st)
    b = { y with state := b.state, outcome := b.outcome, attempts := y.attempts + 1, lastCause := some .conflict }
    ∧ if noRetry then FinishedFor b .lineError .conflict
      else if third then Finished b (if aborts then .aborted else .lineFault) else EnteredReady s l b := by
  intro b
  let y' := y.countAttempt (.failure .conflict)
  have hfinish : y.conflicted graceful st = y'.finishCause .lineError .conflict → b = y'.finishCause .lineError .conflict := fun h => by
    show faultSlot third _ = _
    rw [h, faultSlot]
    split <;> rfl
  have hleft : y'.retryLeft = true ↔ ¬ y.sub.retry.toNat ≤ y.attempts := by
    rw [Slot.retryLeft, decide_eq_true_iff, Nat.add_comm 1, Slot.countAttempt_sub, not_le]
    exact Nat.succ_lt_succ_iff
  have hdetaching : st.map (·.state) = some .detaching ↔ ∃ v ∈ st, v.state = .detaching := by simp
  by_cases hn : noRetry
  · have hends : y.conflicted graceful st = y'.finishCause .lineError .conflict := by
      unfold Slot.conflicted
      dsimp only
      split
      · rfl
      · next hkeep =>
        rw [hdetaching] at hkeep
        exact if_neg fun h => (hleft.mp h) (((hno.mp hn).resolve_left fun h => hkeep (.inl h)).resolve_left fun h => hkeep (.inr h))
    rw [if_pos hn, hfinish hends]
    exact ⟨rfl, rfl, rfl⟩
  · have hkeep : ¬ (y.lastAttempt = true ∨ st.map (·.state) = some .detaching) := by
      rw [hdetaching]
      exact fun h => hn (hno.mpr (h.imp_right .inl))
    have henters : y.conflicted graceful st = y'.enterReady graceful st :=
      (if_neg hkeep).trans (if_pos (hleft.mpr fun h => hn (hno.mpr (.inr (.inr h)))))
    obtain ⟨haborted, hfaulted⟩ := finished_faulted y' graceful st
    rw [if_neg hn]
    by_cases h3 : third
    · have hb : b = (y'.enterReady graceful st).cutOff .lineFault := by
        show faultSlot third _ = _
        rw [henters]
        exact if_pos h3
      rw [if_pos h3, hb]
      refine ⟨Slot.cutOff_entered _ _ _, ?_⟩
      split
      · next h => exact haborted (haborts.mp h)
      · next h => exact hfaulted (mt haborts.mpr h)
    · have hb : b = y'.enterReady graceful st := by
        show faultSlot third _ = _
        rw [henters]
        exact if_neg h3
      rw [if_neg h3, hb]
      exact ⟨Slot.enterReady_eq _ _ _, hready⟩

/-- A reservation returned before the CONFLICT is counted stays returned. -/
theorem State.ConflictCounted.returned {s r u : State} {l : LineId} {h : Line} {third : Prop} [Decidable third] {q : CRingId}
    (hc : State.ConflictCounted l h third r u) (hr : Returned s r l q) : Returned s u l q := by
  obtain ⟨hidle, hreservation, hpolled, hcrings, hrefused, hothers⟩ := hr
  obtain ⟨kcrings, kscanner, kothers⟩ := hc.idle hidle
  unfold Returned
  simp only [kscanner]
  exact ⟨hidle, hreservation, hpolled, kcrings.trans hcrings, hrefused, fun m hm => (kothers m hm).trans (hothers m hm)⟩

/-- The requester of an attempt takes a CONFLICT. -/
theorem conflictTaken {s : State} {l : LineId} {a : Attempt} {h : Line} {g : LineConfig} (hk : s.KeysOk) (hg : h.config = some g)
    (hpoll : a.requester = .scanner → ∃ e b, h.scanner.polled = some (e, b) ∧ ∃ x ∈ s.station e, x.line = l ∧ x.addr = a.addr) :
    s.ConflictTaken l a g h (((s.setLine l h).countExchange l a.addr none).handToRequester l a (.failure .conflict)) := by
  cases hreq : a.requester with
  | scanner =>
    obtain ⟨e, b, hpolled, x, hx, rfl, hxa⟩ := hpoll hreq
    exact conflictTaken_scanner hreq hk hx hxa hpolled hg
  | slot j =>
    cases hn : s.lookup l a.addr with
    | none => exact conflictTaken_noEntry hreq hn g h
    | some e =>
      obtain ⟨x, hx, rfl, hxa⟩ := State.lookup_some hn
      exact conflictTaken_entry hreq hk hx hxa g h

/-- Settles O47. -/
theorem conflictEndsTheAttempt : Obligations.ConflictEndsTheAttempt := by
  intro s l g a i hw hg hrun hk hlines ha hfound hpoll third
  obtain ⟨y, hy, hexec⟩ := endsWith_conflict hw hg hrun ha hfound
  rw [reached_now] at hexec
  obtain ⟨_, _, _, _, hattempt, _⟩ := hy.kept
  have hline := lineHanded_of_heard hg hy s.nowUs (.failure .conflict)
  obtain ⟨hcount, hrunh, hphase, _, hpins, hgraceful⟩ := hy.handOff s.nowUs (.failure .conflict)
  generalize hh : y.handOff s.nowUs (.failure .conflict) = h at *
  have hpoll' : a.requester = .scanner → ∃ e b, h.scanner.polled = some (e, b) ∧ ∃ x ∈ s.station e, x.line = l ∧ x.addr = a.addr := by
    rw [hline.kept.2.2.1]
    exact hpoll
  have htaken := conflictTaken hk hline.kept.1 hpoll'
  generalize hr : ((s.setLine l h).countExchange l a.addr none).handToRequester l a (.failure .conflict) = r at *
  have hc := conflict_ends hy (hattempt.trans ha) hh.symm hr.symm htaken.line
  generalize (s.setLine l y).endAttempt l (.failure .conflict) none = u at *
  obtain ⟨t, ht, hafter⟩ := leads_of_eq hexec rfl
  have honly := htaken.only.trans hc.only
  have htime : u.deviceTime = s.deviceTime := hc.time.trans htaken.time
  obtain ⟨hcounters, hconflicts, hnone, hquiet, hqueue⟩ := hc.line
  have hslot : ∀ m, h.slot m = s.slot l m := fun m => congrArg (vget · m) hline.kept.2.2.2
  have hstation : ∀ e, u.station e = r.station e := fun e => congrArg (vget · e) hc.stations
  have hlookup : ∀ e x, s.station e = some x → x.line = l → x.addr = a.addr → s.lookup l a.addr = some e := fun e x hx hl hxa => by
    subst hl
    exact hxa ▸ State.lookup_of_station hk hx
  refine ⟨u, t, ht, hafter, ?_, honly.crings, honly.others, hcounters.trans hline.counters, hconflicts.trans (congrArg (· + 1) hcount), hnone,
    ?_, fun h3 => ?_, hc.faults, fun m hm => ?_, fun m hm b hb => ?_, fun e x hx hne => ?_, fun e hx => ?_, fun e x hx hl hxa hd => ?_,
    fun j z hz hreq hact hout hza hentry => ?_, fun e x hx b q hreq hl hxa hstate hpolled hres => ?_⟩
  · have := honly.state
    rw [htime] at this
    exact this
  · rw [hquiet, hpins]
    rfl
  · obtain ⟨hp, hru⟩ := hc.goes h3
    exact ⟨hp.trans hphase, hru.trans hrunh⟩
  · rw [hc.slots]
    cases hreq : a.requester with
    | scanner => rw [htaken.slots m (by simp [hreq]), hslot, hm]; rfl
    | slot j =>
      by_cases e : m = j
      · rw [e, htaken.decided j hreq, hslot, ← e, hm]; rfl
      · rw [htaken.slots m (by simp [hreq, Ne.symm e]), hslot, hm]; rfl
  · rw [hc.slots, htaken.slots m hm, hslot, Option.mem_def.mp hb]
    refine ⟨_, rfl, ?_⟩
    unfold faultSlot
    split
    · exact slotCut_cutOff _ _
    · rfl
  · rw [hstation, htaken.miss e, Option.mem_def.mp hx]
    intro he
    obtain ⟨x', hx', hl, hxa⟩ := State.lookup_some he
    obtain rfl : x = x' := Option.some.inj (hx.symm.trans hx')
    exact hne ⟨hl, hxa⟩
  · rw [hstation, htaken.miss e, hx]
    intro he
    obtain ⟨x', hx', _⟩ := State.lookup_some he
    exact nomatch hx.symm.trans hx'
  · obtain ⟨hfreed, hleft⟩ := htaken.freed e x (hlookup e x hx hl hxa) hx hd
    rw [hstation, hqueue, ← hline.kept.2.1]
    exact ⟨hfreed, hleft⟩
  · intro noRetry aborts
    refine ⟨fun e x hx hl hxa hd => ?_, _, ?_, conflictedSlot_decides (graceful := h.gracefulStop) (st := s.keyed l a.addr) Iff.rfl ?_ ?_⟩
    · rw [hstation, htaken.kept e x (hlookup e x hx hl hxa) hx hd, if_neg (by simp [hreq]), ← satSucc_eq]
      rfl
    · rw [hc.slots, htaken.decided j hreq, hslot, Option.mem_def.mp hz]
      rfl
    · have hstop : (s.line l).abortStop = false := by
        obtain ⟨_, _, _, _, _, habort, _⟩ := hlines l
        exact Bool.eq_false_iff.mpr fun h => nomatch (habort h).2.1.symm.trans ha
      rw [hgraceful, Line.gracefulStop_iff, hstop]
      simp [aborts]
    · have hentered := enteredReady_enterReady s l (x := z.countAttempt (.failure .conflict)) hout
      rw [Slot.countAttempt_addr, hza, ← hgraceful] at hentered
      exact hentered
  · subst hl
    have hscanner := hline.kept.2.2.1
    have hreturned := conflictReturned_scanner hreq hk hx hxa (b := b) (by rw [hscanner]; exact hpolled) hline.kept.1
      (by rw [hscanner]; exact hres) hscanner (hline.kept.1.trans hg.symm)
    rw [hr] at hreturned
    refine ⟨hc.returned hreturned, fun hd => ?_⟩
    rw [hstation, htaken.kept e x (hlookup e x hx rfl hxa) hx hd, if_pos hreq, ← satSucc_eq]
    rfl

end Sys2Proof.Machine

/-! # The laws of lines and of Scanners, line by line (R6, R39, R63, R69, R73, R77, R106)

The laws of a line read few of its parts: `Line.control` gathers them, and an operation on a line is followed by what it makes of the
control. `State.Lawful s t`: every line keeps its own laws and those of its Scanner from `s` to `t`. -/

namespace Sys2Proof.Machine

/-! ## What the laws of a line read of it -/

/-- The parts of a line that its laws read, but for its slots. -/
structure Control where
  run : RunState
  phase : Option Phase
  faultCause : Option LineFault
  de : Bool
  sel : Bool
  clocked : Bool
  requester : Option Requester
  abortStop : Bool
  conflictCount : Nat

def Line.control (x : Line) : Control :=
  ⟨x.run, x.phase, x.faultCause, x.pins.de, x.pins.sel, x.isClocked, x.attempt.map (·.requester), x.abortStop, x.conflictCount⟩

/-- The phase is one in which an attempt is in progress. -/
def Control.exchanging (c : Control) : Bool :=
  c.phase == some .lead || c.phase == some .sending || c.phase == some .awaiting || c.phase == some .receiving

def Control.inService (c : Control) : Bool := c.run == .starting || c.run == .running || c.run == .stopping

/-- The laws of a line but for its slots. -/
structure Control.Ok (c : Control) : Prop where
  phase : c.phase.isSome = true ↔ c.run = .running ∨ c.run = .stopping
  fault : c.faultCause.isSome = true ↔ c.run = .faulted
  de : c.de = true ↔ c.phase = some .lead ∨ c.phase = some .sending
  sel : c.sel = true ↔ c.clocked = true ∧ c.exchanging = true
  requester : c.requester.isSome = true → c.exchanging = true
  abortStop : c.abortStop = true → c.phase = some .sending ∧ c.requester = none ∧ c.run = .stopping
  conflicts : c.conflictCount ≤ Config.conflictLimit
  service : c.inService = true → c.conflictCount < Config.conflictLimit

/-- An ACTIVE slot of the line is the requester given. -/
def Line.Asked (x : Line) (r : Option Requester) : Prop := ∀ i, ∀ y ∈ x.slot i, y.state = .active → r = some (.slot i)

theorem Line.ok_iff (x : Line) : x.Ok ↔ x.control.Ok ∧ x.Asked x.control.requester := by
  have hattempt : x.control.requester = none ↔ x.attempt = none := Option.map_eq_none_iff
  constructor
  · rintro ⟨h1, h2, h3, h4, h5, h6, h7, h8, h9⟩
    refine ⟨⟨h1, h2, h3, h4, fun h => h5 (by simpa [Line.control] using h), fun h => ?_, h8, h9⟩, h7⟩
    obtain ⟨hp, ha, hr⟩ := h6 h
    exact ⟨hp, hattempt.mpr ha, hr⟩
  · rintro ⟨⟨h1, h2, h3, h4, h5, h6, h8, h9⟩, h7⟩
    refine ⟨h1, h2, h3, h4, fun h => h5 (by simpa [Line.control] using h), fun h => ?_, h7, h8, h9⟩
    obtain ⟨hp, ha, hr⟩ := h6 h
    exact ⟨hp, hattempt.mp ha, hr⟩

namespace Control

variable {c : Control}

/-! ## What the laws say of a control -/

theorem Ok.requester_none (h : c.Ok) (hp : c.exchanging = false) : c.requester = none := by
  cases hr : c.requester with
  | none => rfl
  | some r => exact absurd (h.requester (by simp [hr])) (by simp [hp])

theorem Ok.abortStop_false (h : c.Ok) (hp : c.phase ≠ some .sending) : c.abortStop = false := by
  cases hb : c.abortStop with
  | false => rfl
  | true => exact absurd (h.abortStop hb).1 hp

theorem Ok.phase_none (h : c.Ok) (hrun : ¬ (c.run = .running ∨ c.run = .stopping)) : c.phase = none := by
  cases hp : c.phase with
  | none => rfl
  | some p => exact absurd (h.phase.mp (by simp [hp])) hrun

theorem exchanging_none (hp : c.phase = none) : c.exchanging = false := by simp [exchanging, hp]

theorem phase_some (hex : c.exchanging = true) : c.phase.isSome = true := by
  cases hp : c.phase with
  | none => rw [exchanging_none hp] at hex; cases hex
  | some p => rfl

/-- In an exchange SEL tells a clocked line (R6). -/
theorem Ok.sel_exchanging (h : c.Ok) (hex : c.exchanging = true) : c.sel = c.clocked := by
  refine Bool.eq_iff_iff.mpr ?_
  simpa [hex] using h.sel

theorem Ok.sel_false (h : c.Ok) (hex : c.exchanging = false) : c.sel = false := by
  simpa [hex] using h.sel

/-- A line with a phase is in service, has no fault cause and may have another conflict before the last. -/
theorem Ok.of_phase (h : c.Ok) (hp : c.phase.isSome = true) :
    (c.run = .running ∨ c.run = .stopping) ∧ c.faultCause = none ∧ c.conflictCount < Config.conflictLimit := by
  have hrun := h.phase.mp hp
  refine ⟨hrun, ?_, h.service (by rcases hrun with e | e <;> simp [inService, e])⟩
  cases hf : c.faultCause with
  | none => rfl
  | some f =>
    have := h.fault.mp (by simp [hf])
    rcases hrun with e | e <;> simp [e] at this

/-! ## What the operations on a line make of its control -/

/-- Between exchanges: IDLE or SETTLE, with driver and SEL off and no attempt (R73, R83). -/
theorem Ok.between (h : c.Ok) (hp : c.phase.isSome = true) (hb : c.abortStop = false) {p : Phase} (hnew : p = .idle ∨ p = .settle) {n : Nat}
    (hn : n < Config.conflictLimit) :
    Ok { c with phase := some p, de := false, sel := false, requester := none, conflictCount := n } := by
  obtain ⟨hrun, -, -⟩ := h.of_phase hp
  have hquiet : exchanging { c with phase := some p, de := false, sel := false, requester := none, conflictCount := n } = false := by
    rcases hnew with rfl | rfl <;> rfl
  exact
    { phase := by simpa using hrun
      fault := h.fault
      de := by rcases hnew with rfl | rfl <;> simp
      sel := by simp [hquiet]
      requester := nofun
      abortStop := fun e => absurd (hb.symm.trans e) nofun
      conflicts := hn.le
      service := fun _ => hn }

/-- The line has settled (R83). -/
theorem Ok.idle (h : c.Ok) (hp : c.phase = some .settle) : Ok { c with phase := some .idle } := by
  have hex : c.exchanging = false := by simp [exchanging, hp]
  exact
    { phase := by simpa [hp] using h.phase
      fault := h.fault
      de := by simpa [hp] using h.de
      sel := by simp [h.sel_false hex, exchanging]
      requester := fun e => absurd (h.requester e) (by simp [hex])
      abortStop := fun e => absurd ((h.abortStop e).1.symm.trans hp) nofun
      conflicts := h.conflicts
      service := h.service }

/-- The grant of an idle line: LEAD or at once SENDING, with the driver on (R6, R74, R75). -/
theorem Ok.granted (h : c.Ok) (hp : c.phase = some .idle) {p : Phase} (hnew : p = .lead ∨ p = .sending) (r : Requester) :
    Ok { c with phase := some p, de := true, sel := c.clocked, requester := some r } := by
  have hphase : c.phase.isSome = true := by simp [hp]
  obtain ⟨hrun, -, hn⟩ := h.of_phase hphase
  have hb := h.abortStop_false (by simp [hp])
  have hex : exchanging { c with phase := some p, de := true, sel := c.clocked, requester := some r } = true := by
    rcases hnew with rfl | rfl <;> rfl
  exact
    { phase := by simpa using hrun
      fault := h.fault
      de := by rcases hnew with rfl | rfl <;> simp
      sel := by simp [hex]
      requester := fun _ => hex
      abortStop := fun e => absurd (hb.symm.trans e) nofun
      conflicts := hn.le
      service := fun _ => hn }

/-- An exchange goes on in another phase of it, the driver on in LEAD and SENDING (R73). -/
theorem Ok.exchange (h : c.Ok) (hex : c.exchanging = true) (hb : c.abortStop = false) {p : Phase} {d : Bool}
    (hnew : exchanging { c with phase := some p, de := d } = true) (hd : d = true ↔ p = .lead ∨ p = .sending) :
    Ok { c with phase := some p, de := d } where
  phase := by simpa [phase_some hex] using h.phase
  fault := h.fault
  de := by simpa using hd
  sel := by rw [hnew, h.sel_exchanging hex]; exact (and_iff_left rfl).symm
  requester _ := hnew
  abortStop e := absurd (hb.symm.trans e) nofun
  conflicts := h.conflicts
  service := h.service

/-- LEAD ends in SENDING, with driver, SEL and attempt as they were (R75). -/
theorem Ok.sending (h : c.Ok) (hp : c.phase = some .lead) : Ok { c with phase := some .sending } :=
  h.exchange (by simp [exchanging, hp]) (h.abortStop_false (by simp [hp])) rfl (by simp [h.de, hp])

/-- Sending ends in AWAITING: the driver goes off, and SEL stays as it is (R7, R78). -/
theorem Ok.awaiting (h : c.Ok) (hp : c.phase = some .sending) (hb : c.abortStop = false) :
    Ok { c with phase := some .awaiting, de := false } :=
  h.exchange (by simp [exchanging, hp]) hb rfl (by simp)

/-- The response's ADDR has been found (R7, R79). -/
theorem Ok.receiving (h : c.Ok) (hp : c.phase = some .awaiting) : Ok { c with phase := some .receiving } :=
  h.exchange (by simp [exchanging, hp]) (h.abortStop_false (by simp [hp])) rfl (by simp [h.de, hp])

/-- Out of service, STOPPED or FAULTED: no phase, driver and SEL off, no attempt, a fault cause in FAULTED alone (R63, R71). -/
theorem ok_out {r : RunState} {f : Option LineFault} (hr : r = .stopped ∧ f = none ∨ r = .faulted ∧ f.isSome = true) {k : Bool} {n : Nat}
    (hn : n ≤ Config.conflictLimit) : Ok ⟨r, none, f, false, false, k, none, false, n⟩ := by
  rcases hr with ⟨rfl, rfl⟩ | ⟨rfl, hf⟩
  · exact ⟨by simp, by simp, by simp, by simp [exchanging], nofun, nofun, hn, by simp [inService]⟩
  · exact ⟨by simp, by simp [hf], by simp, by simp [exchanging], nofun, nofun, hn, by simp [inService]⟩

/-- LINE_START of a line out of service (R64). -/
theorem Ok.starting (h : c.Ok) (hr : c.run = .stopped ∨ c.run = .faulted) :
    Ok { c with run := .starting, faultCause := none, conflictCount := 0 } := by
  have hp := h.phase_none (by rcases hr with e | e <;> simp [e])
  exact
    { phase := by simp [hp]
      fault := by simp
      de := h.de
      sel := h.sel
      requester := h.requester
      abortStop := fun e => absurd ((h.abortStop e).1.symm.trans hp) nofun
      conflicts := Nat.zero_le _
      service := fun _ => by simp [Config.conflictLimit] }

/-- A started line comes to RUNNING and IDLE (R67). -/
theorem Ok.running (h : c.Ok) (hr : c.run = .starting) : Ok { c with run := .running, phase := some .idle } := by
  have hp := h.phase_none (by simp [hr])
  have hex := exchanging_none hp
  exact
    { phase := by simp
      fault := by simpa [hr] using h.fault
      de := by simpa [hp] using h.de
      sel := by simp [h.sel_false hex, exchanging]
      requester := fun e => absurd (h.requester e) (by simp [hex])
      abortStop := fun e => absurd ((h.abortStop e).1.symm.trans hp) nofun
      conflicts := h.conflicts
      service := fun _ => h.service (by simp [inService, hr]) }

/-- A graceful LINE_STOP (R68). -/
theorem Ok.stopping (h : c.Ok) (hr : c.run = .running) : Ok { c with run := .stopping } :=
  { phase := by simpa [hr] using h.phase
    fault := by simpa [hr] using h.fault
    de := h.de
    sel := h.sel
    requester := h.requester
    abortStop := fun e => by
      obtain ⟨hp, hreq, -⟩ := h.abortStop e
      exact ⟨hp, hreq, rfl⟩
    conflicts := h.conflicts
    service := fun _ => h.service (by simp [inService, hr]) }

/-- The attempt is given up and the phase goes on: in SENDING an abort stop waits for the character's end (R69). -/
theorem Ok.abortStopping (h : c.Ok) (hp : c.phase = some .sending) :
    Ok { c with run := .stopping, requester := none, abortStop := true } := by
  obtain ⟨-, hfault, hn⟩ := h.of_phase (by simp [hp])
  exact
    { phase := by simp [hp]
      fault := by simp [hfault]
      de := h.de
      sel := h.sel
      requester := nofun
      abortStop := fun _ => ⟨hp, rfl, rfl⟩
      conflicts := h.conflicts
      service := fun _ => hn }

/-- LINE_CONFIG of a line out of exchange may change its mode (R86). -/
theorem Ok.configured (h : c.Ok) (hr : c.run = .stopped) (k : Bool) : Ok { c with clocked := k } := by
  have hex : c.exchanging = false := exchanging_none (h.phase_none (by simp [hr]))
  exact
    { phase := h.phase, fault := h.fault, de := h.de
      sel := by
        have hquiet : exchanging { c with clocked := k } = false := hex
        rw [hquiet, h.sel_false hex]
        simp
      requester := h.requester, abortStop := h.abortStop, conflicts := h.conflicts, service := h.service }

end Control

/-! ## The slots of a line -/

theorem Line.Ok.control {x : Line} (h : x.Ok) : x.control.Ok := (x.ok_iff.mp h).1

theorem Line.Ok.asked {x : Line} (h : x.Ok) : x.Asked x.control.requester := (x.ok_iff.mp h).2

/-- A line with no attempt has no ACTIVE slot. -/
theorem Line.Ok.asked_none {x : Line} (h : x.Ok) (hr : x.control.requester = none) : x.Asked none := hr ▸ h.asked

/-- Slots that move on do not become ACTIVE (R39). -/
theorem Line.SlotsMoved.asked {x y : Line} (h : x.SlotsMoved y) {r : Option Requester} (hx : x.Asked r) : y.Asked r := by
  intro i b hb hactive
  obtain ⟨a, ha, hmoved⟩ := h.back i b hb
  exact hx i a ha (hmoved.active hactive)

/-- Where the slot that asked is not ACTIVE, none is. -/
theorem Line.Asked.inactive {x : Line} {r : Requester} (h : x.Asked (some r))
    (hr : ∀ i, r = .slot i → ∀ y ∈ x.slot i, y.state ≠ .active) : x.Asked none := by
  intro i y hy hactive
  exact absurd hactive (hr i (Option.some.inj (h i y hy hactive)) y hy)

theorem Line.Asked.of_slots {x y : Line} {r : Option Requester} (h : x.Asked r) (hs : y.slots = x.slots) : y.Asked r :=
  (Line.SlotsMoved.of_eq hs).asked h

/-- A line of free slots. -/
theorem Line.Asked.of_free {x : Line} (h : x.slots = Vector.replicate 8 none) (r : Option Requester) : x.Asked r := by
  intro i y hy
  rw [Line.slot, h, vget_replicate] at hy
  cases hy

/-! ## A line keeps its laws -/

/-- The line keeps its own laws and its Scanner's. -/
structure Line.Lawful (x y : Line) : Prop where
  ok : x.Ok → y.Ok
  scanner : x.scanner.Ok → y.scanner.Ok

theorem Line.Lawful.refl (x : Line) : x.Lawful x := ⟨id, id⟩

theorem Line.Lawful.trans {x y z : Line} (h : x.Lawful y) (k : y.Lawful z) : x.Lawful z := ⟨k.ok ∘ h.ok, k.scanner ∘ h.scanner⟩

/-- A line with the same control whose slots have moved on keeps its own laws. -/
theorem Line.SlotsMoved.ok {x y : Line} (h : x.SlotsMoved y) (hc : y.control = x.control) (hx : x.Ok) : y.Ok :=
  y.ok_iff.mpr ⟨hc ▸ hx.control, hc ▸ h.asked hx.asked⟩

/-- The laws read nothing that has changed. -/
theorem Line.Lawful.of_eq {x y : Line} (hc : y.control = x.control) (hs : y.slots = x.slots) (hsc : y.scanner = x.scanner) :
    x.Lawful y :=
  ⟨(Line.SlotsMoved.of_eq hs).ok hc, fun h => hsc ▸ h⟩

/-- The slots and the Scanner are as they were, and of the control the line's new one keeps the laws. -/
theorem Line.Lawful.of_control {x y : Line} (hs : y.slots = x.slots) (hsc : y.scanner = x.scanner)
    (hr : y.control.requester = x.control.requester) (hc : x.control.Ok → y.control.Ok) : x.Lawful y :=
  ⟨fun h => y.ok_iff.mpr ⟨hc h.control, hr ▸ h.asked.of_slots hs⟩, fun h => hsc ▸ h⟩

theorem Line.SideWork.control {x y : Line} (h : x.SideWork y) : y.control = x.control := by rw [h.rest]; rfl

theorem Line.TableWork.scanner_eq {x y : Line} (h : x.TableWork y) : y.scanner = x.scanner := by rw [h.rest]

theorem Line.TableWork.lawful {x y : Line} (h : x.TableWork y) : x.Lawful y :=
  ⟨h.slots.ok h.side.control, fun hs => h.scanner_eq ▸ hs⟩

/-! ## The operations of chapter 4 on one line -/

theorem Line.control_restartQuiet (now : Nat) (x : Line) : (x.restartQuiet now).control = x.control := by
  unfold Line.restartQuiet
  split <;> rfl

theorem Line.scanner_restartQuiet (now : Nat) (x : Line) : (x.restartQuiet now).scanner = x.scanner := by
  unfold Line.restartQuiet
  split <;> rfl

theorem Line.Lawful.restartQuiet (now : Nat) (x : Line) : x.Lawful (x.restartQuiet now) :=
  .of_eq (x.control_restartQuiet now) (Line.Kept.restartQuiet x now).slots (x.scanner_restartQuiet now)

theorem Line.Lawful.takeEcho (r : Report) (x : Line) : x.Lawful (x.takeEcho r) := by
  unfold Line.takeEcho
  split
  · exact .refl x
  · split
    · exact .refl x
    · split <;> exact .of_eq rfl rfl rfl

theorem Line.beginCharacter_same (x : Line) : x.beginCharacter.control = x.control ∧ x.beginCharacter.scanner = x.scanner := by
  unfold Line.beginCharacter
  split <;> exact ⟨rfl, rfl⟩

theorem Line.Lawful.beginCharacter (x : Line) : x.Lawful x.beginCharacter :=
  .of_eq x.beginCharacter_same.1 (Line.Kept.beginCharacter x).slots x.beginCharacter_same.2

theorem Line.control_beginSending (x : Line) : x.beginSending.control = { x.control with phase := some .sending } :=
  (Line.beginCharacter_same _).1

theorem Line.scanner_beginSending (x : Line) : x.beginSending.scanner = x.scanner := (Line.beginCharacter_same _).2

theorem Line.Lawful.beginSending {x : Line} (hp : x.phase = some .lead) : x.Lawful x.beginSending :=
  .of_control (Line.Kept.beginSending x).slots x.scanner_beginSending (by rw [x.control_beginSending])
    fun h => x.control_beginSending ▸ h.sending hp

theorem Line.Lawful.enterAwaiting (now : Nat) {x : Line} (hp : x.phase = some .sending) (hb : x.abortStop = false) :
    x.Lawful (x.enterAwaiting now) :=
  .of_control rfl rfl rfl fun h => h.awaiting hp hb

theorem Line.Lawful.enterReceiving (now : Nat) (v : Byte) {x : Line} (hp : x.phase = some .awaiting) :
    x.Lawful (x.enterReceiving now v) :=
  .of_control rfl rfl rfl fun h => h.receiving hp

/-- SETTLE without an attempt in progress (R83). -/
theorem Line.Ok.enterSettle (now : Nat) {x : Line} (h : x.Ok) (hp : x.phase.isSome = true) (hb : x.abortStop = false)
    (ha : x.attempt = none) : (x.enterSettle now).Ok := by
  have hr : x.control.requester = none := by simp [Line.control, ha]
  have hcontrol : (x.enterSettle now).control = { x.control with
      phase := some .settle, de := false, sel := false, requester := none, conflictCount := x.conflictCount } := by
    rw [← hr]; rfl
  obtain ⟨-, -, hn⟩ := h.control.of_phase hp
  refine (Line.ok_iff _).mpr ⟨hcontrol ▸ h.control.between hp hb (.inr rfl) hn, ?_⟩
  rw [hcontrol]
  exact (h.asked_none hr).of_slots rfl

theorem Line.Lawful.enterIdle {x : Line} (hp : x.phase = some .settle) : x.Lawful x.enterIdle :=
  .of_control rfl rfl rfl fun h => h.idle hp

/-- A line that no slot is ACTIVE of may come to STOPPED (R63). -/
theorem Line.enterStopped_ok {x : Line} (hn : x.conflictCount ≤ Config.conflictLimit) (ha : x.Asked none) : x.enterStopped.Ok :=
  (Line.ok_iff _).mpr ⟨Control.ok_out (.inl ⟨rfl, rfl⟩) hn, ha.of_slots rfl⟩

theorem Line.enterFaulted_ok {x : Line} (hn : x.conflictCount ≤ Config.conflictLimit) (ha : x.Asked none) (cause : LineFault) :
    (x.enterFaulted cause).Ok :=
  (Line.ok_iff _).mpr ⟨Control.ok_out (.inr ⟨rfl, rfl⟩) hn, ha.of_slots rfl⟩

theorem Line.Ok.conflicts {x : Line} (h : x.Ok) : x.conflictCount ≤ Config.conflictLimit := h.control.conflicts

theorem Line.Lawful.enterStopped {x : Line} (ha : x.Ok → x.attempt = none) : x.Lawful x.enterStopped :=
  ⟨fun h => Line.enterStopped_ok h.conflicts (h.asked_none (by simp [Line.control, ha h])), id⟩

/-- A line out of service has no attempt. -/
theorem Line.Ok.attempt_none {x : Line} (h : x.Ok) (hx : x.control.exchanging = false) : x.attempt = none :=
  Option.map_eq_none_iff.mp (h.control.requester_none hx)

theorem Line.Ok.attempt_none_of_run {x : Line} (h : x.Ok) (hr : ¬ (x.run = .running ∨ x.run = .stopping)) : x.attempt = none :=
  h.attempt_none (Control.exchanging_none (h.control.phase_none hr))

/-- An abort stop waits without an attempt (R69). -/
theorem Line.Ok.attempt_none_of_abortStop {x : Line} (h : x.Ok) (hb : x.abortStop = true) : x.attempt = none := by
  obtain ⟨-, hr, -⟩ := h.control.abortStop hb
  exact Option.map_eq_none_iff.mp hr

theorem Line.Lawful.enterStarting (now : Nat) {x : Line} (hr : x.run = .stopped ∨ x.run = .faulted) : x.Lawful (x.enterStarting now) :=
  .of_control rfl rfl rfl fun h => h.starting hr

theorem Line.Lawful.enterRunning {x : Line} (hr : x.run = .starting) : x.Lawful x.enterRunning :=
  ⟨fun h => (Line.ok_iff _).mpr ⟨h.control.running hr, h.asked.of_slots rfl⟩, id⟩

theorem Line.deviceFaulted_lawful (x : Line) : x.Lawful x.deviceFaulted where
  ok h := (Line.ok_iff _).mpr ⟨Control.ok_out (.inl ⟨rfl, rfl⟩) h.conflicts, .of_free rfl _⟩
  scanner _ := by simp [Line.deviceFaulted, Scanner.reset, Scanner.Ok]

theorem Line.reset_lawful (x : Line) (rxd : Level) : x.Lawful (Line.reset rxd) where
  ok _ := (Line.ok_iff _).mpr ⟨Control.ok_out (.inl ⟨rfl, rfl⟩) (Nat.zero_le _), .of_free rfl _⟩
  scanner _ := by simp [Line.reset, Scanner.reset, Scanner.Ok]

/-- The grant of an idle line, whose ACTIVE slot, if any, is the one granted (R52, R74). -/
theorem Line.beginExchange_ok (now : Nat) (a : Attempt) {x : Line} (hc : x.control.Ok) (hp : x.phase = some .idle)
    (ha : x.Asked (some a.requester)) : (x.beginExchange now a).Ok := by
  have key : ∀ y : Line, y.slots = x.slots → (∃ p, (p = .lead ∨ p = .sending) ∧ y.control = { x.control with
      phase := some p, de := true, sel := x.control.clocked, requester := some a.requester }) → y.Ok := by
    rintro y hs ⟨p, hnew, e⟩
    refine y.ok_iff.mpr ⟨e ▸ hc.granted hp hnew a.requester, ?_⟩
    rw [e]
    exact ha.of_slots hs
  unfold Line.beginExchange
  dsimp only
  split
  · split
    · exact key _ (Line.Kept.beginSending _).slots ⟨.sending, .inr rfl, Line.control_beginSending _⟩
    · exact key _ rfl ⟨.lead, .inl rfl, rfl⟩
  · exact key _ rfl ⟨.lead, .inl rfl, rfl⟩

theorem Line.scanner_beginExchange (now : Nat) (a : Attempt) (x : Line) : (x.beginExchange now a).scanner = x.scanner := by
  unfold Line.beginExchange
  dsimp only
  split
  · split
    · exact Line.scanner_beginSending _
    · rfl
  · rfl

end Sys2Proof.Machine

/-! # The events of a line keep the laws of lines and of Scanners (chapters 3, 4 and 6)

`State.Lawful s t`: each line of `t` keeps the laws that the line of `s` keeps, its Scanner's among them. The operations that end a line's
work break the laws on the way; `Line.Ended` says what the end of the work leaves. -/

namespace Sys2Proof.Machine

def State.Lawful (s t : State) : Prop := ∀ l, (s.line l).Lawful (t.line l)

theorem State.Lawful.refl (s : State) : s.Lawful s := fun _ => .refl _

theorem State.Lawful.trans {s t u : State} (h : s.Lawful t) (k : t.Lawful u) : s.Lawful u := fun l => (h l).trans (k l)

theorem State.Lawful.of_lines {s t : State} (h : t.lines = s.lines) : s.Lawful t := fun l => by
  rw [show t.line l = s.line l by rw [State.line, h]; rfl]
  exact .refl _

theorem State.Lawful.modLine {s : State} {l : LineId} {f : Line → Line} (h : (s.line l).Lawful (f (s.line l))) :
    s.Lawful (s.modLine l f) :=
  State.modLine_lines .refl h

theorem State.TableWork.lawful {s t : State} (h : s.TableWork t) : s.Lawful t := fun l => (h.lines l).lawful

theorem State.SideWork.lawful {s t : State} (h : s.SideWork t) (hs : ∀ l, (s.line l).scanner.Ok → (t.line l).scanner.Ok) :
    s.Lawful t :=
  fun l => ⟨(h.lines l).slots.ok (h.lines l).control, hs l⟩

theorem State.Lawful.foldl {f : State → LineId → State} (h : ∀ (s : State) l, s.Lawful (f s l)) (ls : List LineId) (s : State) :
    s.Lawful (ls.foldl f s) := by
  induction ls generalizing s with
  | nil => exact .refl s
  | cons l ls ih => exact .trans (h s l) (ih (f s l))

/-- Every line but `l` keeps its laws. -/
def State.LawfulElsewhere (l : LineId) (s t : State) : Prop := ∀ k, k ≠ l → (s.line k).Lawful (t.line k)

theorem State.Lawful.elsewhere {s t : State} (h : s.Lawful t) (l : LineId) : s.LawfulElsewhere l t := fun k _ => h k

theorem State.LawfulElsewhere.trans {l : LineId} {s t u : State} (h : s.LawfulElsewhere l t) (k : t.LawfulElsewhere l u) :
    s.LawfulElsewhere l u := fun m hm => (h m hm).trans (k m hm)

theorem State.LawfulElsewhere.modLine (s : State) (l : LineId) (f : Line → Line) : s.LawfulElsewhere l (s.modLine l f) := fun k hk => by
  rw [State.line_modLine_ne _ _ hk]
  exact .refl _

theorem State.LawfulElsewhere.lawful {l : LineId} {s t : State} (h : s.LawfulElsewhere l t) (hl : (s.line l).Lawful (t.line l)) :
    s.Lawful t := fun k => by
  by_cases e : k = l
  · subst e; exact hl
  · exact h k e

/-! ## The Scanner (R106, R109, R111, R114) -/

namespace Scanner

variable {x : Scanner}

theorem Ok.refused (h : x.Ok) (b : Bool) : Scanner.Ok { x with refused := b } := h

/-- A Scanner that is not delivering comes to IDLE. -/
theorem Ok.idle (h : x.Ok) (hd : x.state ≠ .delivering) : Scanner.Ok { x with state := .idle, reservation := none, polled := none } := by
  obtain ⟨-, -, hdelivery⟩ := h
  exact ⟨by simp, by simp, by simpa [hd] using hdelivery⟩

/-- The end of a delivery. -/
theorem Ok.delivered (h : x.Ok) (hd : x.state = .delivering) :
    Scanner.Ok { x with state := .idle, reservation := none, delivery := none } := by
  obtain ⟨-, hpolled, -⟩ := h
  exact ⟨by simp, by simpa [hd] using hpolled, by simp⟩

/-- An IDLE Scanner claims a place. -/
theorem Ok.holding (h : x.Ok) (hi : x.state = .idle) (r : CRingId) :
    Scanner.Ok { x with state := .holding, reservation := some r } := by
  obtain ⟨-, hpolled, hdelivery⟩ := h
  exact ⟨by simp, by simpa [hi] using hpolled, by simpa [hi] using hdelivery⟩

/-- A Scanner in HOLDING has its poll granted. -/
theorem Ok.polling (h : x.Ok) (hh : x.state = .holding) (p : EntryId × Bool) :
    Scanner.Ok { x with state := .polling, polled := some p } := by
  obtain ⟨hreservation, -, hdelivery⟩ := h
  exact ⟨by simpa [hh] using hreservation, by simp, by simpa [hh] using hdelivery⟩

theorem Ok.polling_of_polled (h : x.Ok) {p : EntryId × Bool} (hp : x.polled = some p) : x.state = .polling := by
  obtain ⟨-, hpolled, -⟩ := h
  exact hpolled.mp (by simp [hp])

/-- A poll's response becomes a delivery. -/
theorem Ok.delivering (h : x.Ok) {p : EntryId × Bool} (hp : x.polled = some p) (d : Delivery) :
    Scanner.Ok { x with state := .delivering, polled := none, delivery := some d } := by
  have hs := h.polling_of_polled hp
  obtain ⟨hreservation, -, -⟩ := h
  exact ⟨by simpa [hs] using hreservation, by simp, by simp⟩

/-- A delivery goes on. -/
theorem Ok.delivery (h : x.Ok) (hd : x.state = .delivering) (d : Delivery) : Scanner.Ok { x with delivery := some d } := by
  obtain ⟨hreservation, hpolled, -⟩ := h
  exact ⟨hreservation, hpolled, by simp [hd]⟩

end Scanner

theorem State.Lawful.setScanner {s : State} {l : LineId} {f : Line → Scanner}
    (h : (s.line l).scanner.Ok → (f (s.line l)).Ok) : s.Lawful (s.modLine l fun x => { x with scanner := f x }) :=
  .modLine ⟨(Line.SlotsMoved.of_eq rfl).ok rfl, h⟩

theorem State.Lawful.gainPlace (s : State) (r : CRingId) : s.Lawful (s.gainPlace r) := fun l => by
  rw [State.line_gainPlace, Line.placeGained_eq]
  exact ⟨(Line.SlotsMoved.of_eq rfl).ok rfl, fun h => h.refused _⟩

theorem State.Lawful.returnReservation (s : State) (r : CRingId) : s.Lawful (s.returnReservation r) :=
  .trans (t := s.modCRing r fun c => { c with reserved := c.reserved - 1 }) (.of_lines rfl) (.gainPlace _ r)

theorem State.Lawful.dropPoll (s : State) (l : LineId) : s.Lawful (s.dropPoll l) := by
  unfold State.dropPoll
  dsimp only
  split
  · next hs _ => exact .trans (.setScanner fun h => h.idle (by simp [hs])) (.returnReservation _ _)
  · next hs _ => exact .trans (.setScanner fun h => h.idle (by simp [hs])) (.returnReservation _ _)
  · exact .refl s

/-- The end of a poll, which the Scanner has a station of (R111). -/
theorem State.Lawful.endPoll {s : State} {l : LineId} {p : EntryId × Bool} (hp : (s.line l).scanner.polled = some p) :
    s.Lawful (s.endPoll l) := by
  have hidle : (s.line l).scanner.Ok →
      Scanner.Ok { (s.line l).scanner with state := .idle, reservation := none, polled := none } := fun h =>
    h.idle (by simp [h.polling_of_polled hp])
  unfold State.endPoll
  dsimp only
  split
  · exact .trans (.setScanner hidle) (.returnReservation _ _)
  · exact .setScanner hidle

theorem State.TableWork.scanner_eq {s t : State} (h : s.TableWork t) (l : LineId) : (t.line l).scanner = (s.line l).scanner :=
  (h.lines l).scanner_eq

theorem State.Lawful.scanOutcome {s : State} {l : LineId} {p : EntryId × Bool} (hp : (s.line l).scanner.polled = some p) (e : EntryId)
    (detaching : Bool) (a : Attempt) (o : AttemptOutcome) : s.Lawful (s.scanOutcome l e detaching a o) := by
  have hend : ∀ t : State, s.TableWork t → s.Lawful (t.endPoll l) := fun t h =>
    h.lawful.trans (.endPoll (p := p) (by rw [h.scanner_eq, hp]))
  have hdetach : ∀ t u : State, s.TableWork t → t.TableWork u → s.Lawful ((if detaching then t.freeDetaching e else u).endPoll l) := by
    intro t u ht hu
    split
    · exact hend _ (ht.trans (.freeEntry t e))
    · exact hend _ (ht.trans hu)
  have hcount : ∀ f : Line → Counters, s.TableWork (s.modLine l fun x => { x with counters := f x }) := fun f =>
    State.TableWork.modCounters s l f
  unfold State.scanOutcome
  split
  · split
    · next i b t h =>
      have ht : t.lines = s.lines := by
        obtain ⟨q, -, -, -, -, rfl⟩ := State.poolClaim_some h
        rfl
      have hpt : (t.line l).scanner.polled = some p := by rw [State.line, ht]; exact hp
      refine .trans (.of_lines ht) (.trans ?_ (State.TableWork.scanDelivered _ l e detaching a).lawful)
      exact .modLine ⟨(Line.SlotsMoved.of_eq rfl).ok rfl, fun h => h.delivering hpt _⟩
    · exact hdetach _ _ (hcount fun x => { x.counters with poolStarves := satSucc 4294967295 x.counters.poolStarves })
        (.stationRedelivery _ e)
  · exact hdetach _ _ (hcount fun x => { x.counters with busy := satSucc 4294967295 x.counters.busy }) (.stationBusy _ e)
  · exact hend _ (.scanDelivered s l e detaching a)
  · exact hend _ (.scanDelivered s l e detaching a)
  · exact hend _ (.scanDelivered s l e detaching a)
  · exact hdetach s _ (.refl s) (.scheduleNext s e)
  · exact hdetach s _ (.refl s) (.trans (.failureAccounting s e _) (.scheduleNext _ e))
  · exact hend s (.refl s)

theorem State.Lawful.handToRequester (s : State) (l : LineId) (a : Attempt) (o : AttemptOutcome) :
    s.Lawful (s.handToRequester l a o) := by
  unfold State.handToRequester
  split
  · exact (State.slotOutcome_work s l _ a o).1.lawful
  · split
    · next hp => exact .scanOutcome hp _ _ a o
    · exact .refl s

/-- The slot that asked for the attempt is not ACTIVE once it has the outcome (R53). -/
theorem State.handToRequester_inactive (s : State) (l : LineId) (a : Attempt) (o : AttemptOutcome) {i : SlotId}
    (hr : a.requester = .slot i) : ∀ y ∈ (s.handToRequester l a o).slot l i, y.state ≠ .active := by
  unfold State.handToRequester
  rw [hr]
  exact (State.slotOutcome_work s l i a o).2

theorem State.Lawful.deliveryDecided {s : State} {l : LineId} (hd : (s.line l).scanner.state = .delivering) (d : Delivery)
    (status : Status) : s.Lawful (s.deliveryDecided l d status) := by
  unfold State.deliveryDecided
  dsimp only
  split
  · exact .trans (.setScanner fun h => h.delivery hd _) (State.TableWork.requestWrite _ _ _).lawful
  · exact .setScanner fun h => h.delivery hd _

theorem State.Lawful.deliveryAddressed {s : State} {l : LineId} (hd : (s.line l).scanner.state = .delivering) (d : Delivery)
    (buffer : Addr) : s.Lawful (s.deliveryAddressed l d buffer) := by
  unfold State.deliveryAddressed
  dsimp only
  split
  · exact .deliveryDecided hd _ _
  · exact .setScanner fun h => h.delivery hd _

theorem State.Lawful.scanClaimPlace {s : State} {l : LineId} (hi : (s.line l).scanner.state = .idle) :
    s.Lawful (s.scanClaimPlace l) := by
  unfold State.scanClaimPlace
  split
  · exact .refl s
  · split
    · exact .trans (t := s.reserve _) (.of_lines rfl) (.setScanner fun h => h.holding hi _)
    · exact .modLine ⟨(Line.SlotsMoved.of_eq rfl).ok rfl, fun h => h.refused _⟩

/-! ## The end of a line's work (R26, R61, R69, R71, R72) -/

/-- The line's attempt is gone, no slot is ACTIVE, and nothing else that its laws read has changed. -/
structure Line.Ended (x y : Line) : Prop where
  control : y.control = { x.control with requester := none }
  asked : x.Asked x.control.requester → y.Asked none
  scanner : x.scanner.Ok → y.scanner.Ok

theorem Line.Ended.trans {x y z : Line} (h : x.Ended y) (k : y.SideWork z) (hs : y.scanner.Ok → z.scanner.Ok) : x.Ended z :=
  ⟨k.control.trans h.control, fun hx => k.slots.asked (h.asked hx), hs ∘ h.scanner⟩

/-- The attempt is taken off the line, the slot that asked for it goes on from ACTIVE, and the rest of the slots move on. -/
theorem Line.Ended.of_attempt {x y : Line} {a : Attempt} (ha : x.attempt = some a) (h : Line.SideWork { x with attempt := none } y)
    (hr : ∀ i, a.requester = .slot i → ∀ b ∈ y.slot i, b.state ≠ .active) (hs : x.scanner.Ok → y.scanner.Ok) : x.Ended y where
  control := h.control
  asked hx := by
    rw [show x.control.requester = some a.requester by simp [Line.control, ha]] at hx
    exact (h.slots.asked (hx.of_slots rfl)).inactive hr
  scanner := hs

theorem Line.Ended.of_none {x : Line} (ha : x.attempt = none) : x.Ended x := by
  have hr : x.control.requester = none := by simp [Line.control, ha]
  exact ⟨by rw [← hr], fun h => hr ▸ h, id⟩

theorem State.abandonAttempt_ended (s : State) (l : LineId) (status : Status) (free : Bool) :
    (s.line l).Ended ((s.abandonAttempt l status free).line l) ∧ s.LawfulElsewhere l (s.abandonAttempt l status free) := by
  cases ha : (s.line l).attempt with
  | none =>
    rw [show s.abandonAttempt l status free = s by rw [State.abandonAttempt, ha]]
    exact ⟨.of_none ha, (State.Lawful.refl s).elsewhere l⟩
  | some a =>
    have hstation := State.TableWork.abandonStation (s.withoutAttempt l) l a.addr free
    have hend : ∀ t, (s.withoutAttempt l).TableWork t → (∀ i, a.requester = .slot i → ∀ b ∈ t.slot l i, b.state ≠ .active) →
        (s.line l).Ended (t.line l) ∧ s.LawfulElsewhere l t := by
      intro t h hr
      have hline := h.lines l
      rw [State.line_withoutAttempt] at hline
      exact ⟨.of_attempt ha hline.side hr fun hs => hline.scanner_eq ▸ hs,
        (State.LawfulElsewhere.modLine s l _).trans (h.lawful.elsewhere l)⟩
    cases hr : a.requester with
    | scanner =>
      rw [State.abandonAttempt_scanner ha hr]
      exact hend _ hstation fun i e => by rw [hr] at e; cases e
    | slot i =>
      rw [State.abandonAttempt_slot ha hr]
      obtain ⟨hended, helse⟩ := hend _ (hstation.trans (.modSlot (l := l) (i := i) fun y _ => .abandoned y status)) fun j e b hb => by
        obtain rfl : i = j := by simpa [hr] using e
        rw [State.slot_modSlot_eq, Option.mem_def, Option.map_eq_some_iff] at hb
        obtain ⟨y, -, rfl⟩ := hb
        simp [Slot.finishPlain, Slot.finish]
      generalize State.modSlot _ l i _ = u at *
      have htxn := State.TableWork.requestTxn u l
      exact ⟨hended.trans (htxn.lines l).side fun h => htxn.scanner_eq l ▸ h, helse.trans (htxn.lawful.elsewhere l)⟩

/-- The end of a line's work leaves no attempt and no ACTIVE slot, and the line's control otherwise as it was (R61). -/
theorem State.endWork_ended (s : State) (l : LineId) (status : Status) (free : Bool) :
    (s.line l).Ended ((s.endWork l status free).line l) ∧ s.LawfulElsewhere l (s.endWork l status free) := by
  obtain ⟨hended, helse⟩ := s.abandonAttempt_ended l status free
  rw [State.endWork_eq]
  generalize s.abandonAttempt l status free = u at *
  have hdrop := State.Lawful.dropPoll u l
  have hended : (s.line l).Ended ((u.dropPoll l).line l) := hended.trans ((State.SideWork.dropPoll u l).lines l) (hdrop l).scanner
  have helse := helse.trans (hdrop.elsewhere l)
  generalize u.dropPoll l = v at *
  refine ⟨?_, helse.trans (.modLine v l _)⟩
  rw [State.line_modLine_same]
  obtain ⟨hcontrol, hasked, hscanner⟩ := hended
  refine ⟨hcontrol, fun h => ?_, hscanner⟩
  have hmoved : (v.line l).SlotsMoved ((v.line l).mapSlots (·.cutOff status)) := .mapSlots fun _ a _ => .cutOff a status
  exact (hmoved.asked (hasked h)).of_slots rfl

/-- The line's work ends and the line goes into another run state. -/
theorem State.Lawful.endWork_then {s : State} {l : LineId} {status : Status} {free : Bool} {f : Line → Line}
    (hok : (s.line l).Ok → ∀ y : Line, y.control = { (s.line l).control with requester := none } → y.Asked none → (f y).Ok)
    (hscanner : ∀ y : Line, (f y).scanner = y.scanner) : s.Lawful ((s.endWork l status free).modLine l f) := by
  obtain ⟨hended, helse⟩ := s.endWork_ended l status free
  generalize s.endWork l status free = u at *
  refine (helse.trans (.modLine u l f)).lawful ?_
  rw [State.line_modLine_same]
  exact ⟨fun h => hok h _ hended.control (hended.asked h.asked), fun h => by rw [hscanner]; exact hended.scanner h⟩

theorem Line.conflictCount_of_control {x y : Line} (h : y.control = { x.control with requester := none }) :
    y.conflictCount = x.conflictCount := congrArg Control.conflictCount h

/-- A line may be faulted at any conflict count within the limit: the law for a line in service is not asked of it (R71, R77). -/
theorem State.faultLine_ok {s : State} {l : LineId} (hasked : (s.line l).Asked (s.line l).control.requester)
    (hn : (s.line l).conflictCount ≤ Config.conflictLimit) (cause : LineFault) : ((s.faultLine l cause).line l).Ok := by
  obtain ⟨hended, -⟩ := s.endWork_ended l .lineFault true
  rw [State.faultLine, State.line_modLine_same]
  exact Line.enterFaulted_ok (Line.conflictCount_of_control hended.control ▸ hn) (hended.asked hasked) cause

theorem State.faultLine_scanner (s : State) (l : LineId) (cause : LineFault) (h : (s.line l).scanner.Ok) :
    ((s.faultLine l cause).line l).scanner.Ok := by
  obtain ⟨hended, -⟩ := s.endWork_ended l .lineFault true
  rw [State.faultLine, State.line_modLine_same]
  exact hended.scanner h

theorem State.faultLine_elsewhere (s : State) (l : LineId) (cause : LineFault) : s.LawfulElsewhere l (s.faultLine l cause) :=
  (s.endWork_ended l .lineFault true).2.trans (.modLine _ l _)

theorem State.Lawful.faultLine (s : State) (l : LineId) (cause : LineFault) : s.Lawful (s.faultLine l cause) :=
  (s.faultLine_elsewhere l cause).lawful ⟨fun h => State.faultLine_ok h.asked h.conflicts cause, s.faultLine_scanner l cause⟩

theorem State.Lawful.stopLine (s : State) (l : LineId) (status : Status) (free : Bool) :
    s.Lawful ((s.endWork l status free).modLine l Line.enterStopped) :=
  .endWork_then (fun h _ hc ha => Line.enterStopped_ok (Line.conflictCount_of_control hc ▸ h.conflicts) ha) fun _ => rfl

theorem State.Lawful.abortLine (s : State) (l : LineId) : s.Lawful (s.abortLine l) := by
  refine .endWork_then (fun h y hc ha => ?_) fun y => ?_
  · split
    · next hp =>
      have hcontrol : Line.control { y with run := .stopping, abortStop := true, attempt := none }
          = { (s.line l).control with run := .stopping, requester := none, abortStop := true } := by
        have e : Line.control { y with run := .stopping, abortStop := true, attempt := none }
            = { y.control with run := .stopping, requester := none, abortStop := true } := rfl
        rw [e, hc]
      have hphase : (s.line l).control.phase = some .sending := (congrArg Control.phase hc).symm.trans hp
      refine (Line.ok_iff _).mpr ⟨hcontrol ▸ h.control.abortStopping hphase, ?_⟩
      rw [hcontrol]
      exact ha.of_slots rfl
    · exact Line.enterStopped_ok (Line.conflictCount_of_control hc ▸ h.conflicts) ha
  · split <;> rfl

theorem State.Lawful.disableLine (s : State) (l : LineId) : s.Lawful (s.disableLine l) := by
  unfold State.disableLine
  split
  · exact .abortLine s l
  · exact .abortLine s l
  · exact .stopLine s l _ _
  · exact .stopLine s l _ _
  · exact .stopLine s l _ _

/-! ## The end of an attempt (R77, R82) -/

/-- The attempt of line `l` has ended and its outcome been handed on: the line settles, with no attempt, and its conflict count is `n`. -/
structure Line.Settled (n : Nat) (x y : Line) : Prop where
  control : y.control =
    { x.control with phase := some .settle, de := false, sel := false, requester := none, conflictCount := n }
  asked : x.Ok → y.Asked none
  scanner : x.scanner.Ok → y.scanner.Ok

/-- The line settles and its attempt is taken off it (R82). -/
def Line.attemptOver (now : Nat) (o : AttemptOutcome) (x : Line) : Line := { (x.enterSettle now).countOutcome o with attempt := none }

theorem Line.attemptOver_same (now : Nat) (o : AttemptOutcome) (x : Line) :
    (x.attemptOver now o).control = { x.control with phase := some .settle, de := false, sel := false, requester := none }
      ∧ (x.attemptOver now o).slots = x.slots ∧ (x.attemptOver now o).scanner = x.scanner := by
  unfold Line.attemptOver Line.countOutcome
  split <;> exact ⟨rfl, rfl, rfl⟩

/-- The attempt over, its outcome counted and handed to its requester. -/
def State.outcomeHanded (s : State) (l : LineId) (a : Attempt) (o : AttemptOutcome) (kind : Option RespKind) : State :=
  ((s.modLine l (Line.attemptOver s.nowUs o)).countExchange l a.addr kind).handToRequester l a o

theorem State.endAttempt_some {s : State} {l : LineId} {a : Attempt} (ha : (s.line l).attempt = some a) (o : AttemptOutcome)
    (kind : Option RespKind) : s.endAttempt l o kind =
      let t := (s.outcomeHanded l a o kind).modLine l (Line.countConflict o)
      if Config.conflictLimit ≤ (t.line l).conflictCount then t.faultLine l .conflict else t := by
  rw [State.endAttempt, ha]
  rfl

theorem State.outcomeHanded_ended {s : State} {l : LineId} {a : Attempt} (ha : (s.line l).attempt = some a) (o : AttemptOutcome)
    (kind : Option RespKind) :
    (s.line l).Settled (s.line l).conflictCount ((s.outcomeHanded l a o kind).line l)
      ∧ s.LawfulElsewhere l (s.outcomeHanded l a o kind) := by
  have helse := State.LawfulElsewhere.modLine s l (Line.attemptOver s.nowUs o)
  obtain ⟨hcontrol, hslots, hscanner⟩ := (s.line l).attemptOver_same s.nowUs o
  rw [← State.line_modLine_same s l (Line.attemptOver s.nowUs o)] at hcontrol hslots hscanner
  unfold State.outcomeHanded
  generalize s.modLine l _ = u at *
  have hcount := State.TableWork.countExchange u l a.addr kind
  generalize u.countExchange l a.addr kind = v at *
  have hhand := State.Lawful.handToRequester v l a o
  have hwork := hcount.side.trans (State.SideWork.handToRequester v l a o)
  have hinactive := fun i => State.handToRequester_inactive v l a o (i := i)
  generalize v.handToRequester l a o = w at *
  refine ⟨⟨(hwork.lines l).control.trans hcontrol, fun h => ?_, fun h => ?_⟩,
    helse.trans ((hcount.lawful.trans hhand).elsewhere l)⟩
  · have hasked := h.asked
    rw [show (s.line l).control.requester = some a.requester by simp [Line.control, ha]] at hasked
    exact ((hwork.lines l).slots.asked (hasked.of_slots hslots)).inactive hinactive
  · exact (hhand l).scanner ((hcount.lawful l).scanner (hscanner ▸ h))

theorem Line.Settled.countConflict {n : Nat} {x y : Line} (h : x.Settled n y) (o : AttemptOutcome) :
    x.Settled (y.countConflict o).conflictCount (y.countConflict o) where
  control := by
    have e : (y.countConflict o).control = { y.control with conflictCount := (y.countConflict o).conflictCount } := rfl
    rw [e, h.control]
  asked hx := (h.asked hx).of_slots rfl
  scanner := h.scanner

theorem Line.Settled.ok {n : Nat} {x y : Line} (h : x.Settled n y) (hx : x.Ok) (hp : x.phase.isSome = true) (hb : x.abortStop = false)
    (hn : n < Config.conflictLimit) : y.Ok := by
  refine y.ok_iff.mpr ⟨h.control ▸ hx.control.between hp hb (.inr rfl) hn, ?_⟩
  rw [h.control]
  exact h.asked hx

theorem Line.countConflict_le (o : AttemptOutcome) (x : Line) : (x.countConflict o).conflictCount ≤ x.conflictCount + 1 := by
  unfold Line.countConflict
  dsimp only
  split <;> omega

/-- The third conflict in a row faults a line that has ended its attempt; before that the line settles. -/
theorem State.Lawful.endAttempt {s : State} {l : LineId} (hp : (s.line l).phase.isSome = true)
    (hb : (s.line l).Ok → (s.line l).abortStop = false) (o : AttemptOutcome) (kind : Option RespKind) : s.Lawful (s.endAttempt l o kind) := by
  cases ha : (s.line l).attempt with
  | none =>
    rw [State.endAttempt, ha]
    exact .modLine ⟨fun h => h.enterSettle _ hp (hb h) ha, id⟩
  | some a =>
    rw [State.endAttempt_some ha]
    extract_lets t
    obtain ⟨hsettled, helse⟩ := State.outcomeHanded_ended ha o kind
    have hline : t.line l = ((s.outcomeHanded l a o kind).line l).countConflict o := State.line_modLine_same _ _ _
    have helse : s.LawfulElsewhere l t := helse.trans (.modLine _ l _)
    have hcount : (t.line l).conflictCount ≤ (s.line l).conflictCount + 1 := by
      rw [hline, ← show _ = (s.line l).conflictCount from congrArg Control.conflictCount hsettled.control]
      exact Line.countConflict_le o _
    have hsettled : (s.line l).Settled (t.line l).conflictCount (t.line l) := hline ▸ hsettled.countConflict o
    clear_value t
    split
    · refine (helse.trans (t.faultLine_elsewhere l _)).lawful
        ⟨fun h => State.faultLine_ok ?_ ?_ _, fun h => t.faultLine_scanner l _ (hsettled.scanner h)⟩
      · rw [hsettled.control]
        exact hsettled.asked h
      · obtain ⟨-, -, hn⟩ := h.control.of_phase hp
        exact hcount.trans hn
    · next hn =>
      exact helse.lawful ⟨fun h => hsettled.ok h hp (hb h) (Nat.not_le.mp hn), hsettled.scanner⟩

/-- In a phase other than SENDING no abort stop waits (R69). -/
theorem State.Lawful.endExchange {s : State} {l : LineId} {p : Phase} (hp : (s.line l).phase = some p) (hne : p ≠ .sending)
    (o : AttemptOutcome) (kind : Option RespKind) : s.Lawful (s.endAttempt l o kind) :=
  .endAttempt (by simp [hp]) (fun h => h.control.abortStop_false fun e => hne (Option.some.inj (hp.symm.trans e))) o kind

theorem State.Lawful.failExchange {s : State} {l : LineId} {p : Phase} (hp : (s.line l).phase = some p) (hne : p ≠ .sending)
    (c : Cause) : s.Lawful (s.failAttempt l c) :=
  .endExchange hp hne _ _

/-! ## Characters (R3 to R7, R75 to R85) -/

/-- The parts of a line that its laws read are as they were. -/
theorem State.Lawful.ofUnread {s : State} {l : LineId} {f : Line → Line} (hc : (f (s.line l)).control = (s.line l).control)
    (hs : (f (s.line l)).slots = (s.line l).slots) (hsc : (f (s.line l)).scanner = (s.line l).scanner) : s.Lawful (s.modLine l f) :=
  .modLine (.of_eq hc hs hsc)

theorem State.Lawful.reachUs (s : State) (t : Nat) : s.Lawful (s.reachUs t) := .of_lines rfl

theorem State.Lawful.leadEnds (s : State) (l : LineId) : s.Lawful (s.leadEnds l) := by
  unfold State.leadEnds
  dsimp only
  split
  · next hp _ _ =>
    split
    · exact .trans (.reachUs s _) (.modLine (.beginSending hp))
    · exact .refl s
  · exact .refl s

theorem State.Lawful.characterEnds (s : State) (l : LineId) : s.Lawful (s.characterEnds l) := by
  unfold State.characterEnds
  extract_lets x n t
  have ht : s.Lawful t := .ofUnread rfl rfl rfl
  split
  · next hx =>
    split
    · next hb => exact .modLine (.enterStopped fun h => h.attempt_none_of_abortStop hb)
    · next hb =>
      have hline : t.line l = { x with sentPos := n, pins := { x.pins with shifting := [] } } := State.line_modLine_same _ _ _
      have hpt : (t.line l).phase = some .sending := by rw [hline]; exact hx.2
      have hbt : (t.line l).abortStop = false := by rw [hline]; exact Bool.not_eq_true _ ▸ hb
      clear_value t
      have hend : ∀ o k, t.Lawful (t.endAttempt l o k) := fun o k => .endAttempt (by simp [hpt]) (fun _ => hbt) o k
      split
      · exact .refl s
      · split
        · exact ht.trans (hend _ _)
        · split
          · exact ht.trans (.modLine (.beginCharacter _))
          · unfold State.sendingEnds
            split
            · exact ht.trans (hend _ _)
            · exact ht.trans (.modLine (.enterAwaiting _ hpt hbt))
  · exact .refl s

theorem State.Lawful.storeCharacter {s : State} {l : LineId} (hp : (s.line l).phase = some .receiving) (a : Attempt) (v : Byte) :
    s.Lawful (s.storeCharacter l a v) := by
  have hstored : ∀ rx o k, s.Lawful ((s.modLine l fun x => { x with rx := rx }).endAttempt l o k) := fun rx o k => by
    have ht : s.Lawful (s.modLine l fun x => { x with rx := rx }) := .ofUnread rfl rfl rfl
    exact ht.trans (.endExchange (p := .receiving) (by rw [State.line_modLine_same]; exact hp) nofun o k)
  unfold State.storeCharacter
  split
  · exact .ofUnread rfl rfl rfl
  · exact hstored _ _ _
  · exact hstored _ _ _

theorem State.Lawful.awaitCharacter {s : State} {l : LineId} (hp : (s.line l).phase = some .awaiting) (a : Attempt) (r : Report) :
    s.Lawful (s.awaitCharacter l a r) := by
  have hfail : ∀ c, s.Lawful (s.failAttempt l c) := State.Lawful.failExchange hp nofun
  unfold State.awaitCharacter
  split
  · exact hfail _
  · split
    · extract_lets t
      have ht : s.Lawful t := .ofUnread rfl rfl rfl
      have hpt : (t.line l).phase = some .awaiting := by rw [State.line_modLine_same]; exact hp
      split
      · exact ht.trans (.failExchange hpt nofun _)
      · exact ht
    · split
      · exact hfail _
      · split
        · exact .modLine (.enterReceiving _ _ hp)
        · exact hfail _

theorem State.Lawful.receiveCharacter {s : State} {l : LineId} (hp : (s.line l).phase = some .receiving) (a : Attempt) (r : Report) :
    s.Lawful (s.receiveCharacter l a r) := by
  have hfail : ∀ c, s.Lawful (s.failAttempt l c) := State.Lawful.failExchange hp nofun
  unfold State.receiveCharacter
  split
  · exact hfail _
  · split
    · exact hfail _
    · split
      · exact hfail _
      · exact .storeCharacter hp a _

theorem State.Lawful.asyncReport (s : State) (l : LineId) (r : Report) : s.Lawful (s.asyncReport l r) := by
  unfold State.asyncReport
  extract_lets t x
  have ht : s.Lawful t := .ofUnread rfl rfl rfl
  refine ht.trans ?_
  split
  · exact .modLine (.trans (y := (t.line l).countStray) (.of_eq rfl rfl rfl) (.restartQuiet _ _))
  · split
    · exact .refl t
    · next hp =>
      refine .modLine ⟨fun h => Line.Ok.enterSettle _ ?_ ?_ ?_ ?_, id⟩
      · exact (Line.SlotsMoved.of_eq rfl).ok rfl h
      · exact (congrArg Option.isSome hp : _)
      · exact h.control.abortStop_false (by rw [show (t.line l).control.phase = _ from hp]; nofun)
      · exact h.attempt_none (by simp [Control.exchanging, Line.control, show (t.line l).phase = _ from hp])
    · exact .modLine (.trans (y := (t.line l).countLate) (.of_eq rfl rfl rfl) (.restartQuiet _ _))
    · exact .modLine (.takeEcho r _)
    · next hp => exact .failExchange hp nofun _
    · next hp =>
      split
      · exact .refl t
      · exact .awaitCharacter hp _ r
    · next hp =>
      split
      · exact .refl t
      · exact .receiveCharacter hp _ r

theorem State.Lawful.clockedCharacter (s : State) (l : LineId) (c : LineConfig) (v : Byte) :
    s.Lawful (s.clockedCharacter l c v) := by
  unfold State.clockedCharacter
  dsimp only
  split
  · next hp _ =>
    split
    · exact .refl s
    · split
      · exact .ofUnread rfl rfl rfl
      · split
        · exact .modLine (.enterReceiving _ _ hp)
        · exact .failExchange hp nofun _
  · next hp _ => exact .storeCharacter hp _ v
  · exact .refl s

theorem State.Lawful.characterArrives (s : State) (l : LineId) (raw : RawChar) : s.Lawful (s.characterArrives l raw) := by
  unfold State.characterArrives
  split
  · split
    · exact .refl s
    · split
      · split
        · exact .asyncReport s l _
        · exact .refl s
      · exact .clockedCharacter s l _ _
  · exact .refl s

theorem State.Lawful.rxdTakes (s : State) (l : LineId) (level : Level) : s.Lawful (s.rxdTakes l level) := by
  unfold State.rxdTakes
  dsimp only
  split
  · exact .refl s
  · refine .modLine ?_
    split
    · split
      · exact .of_eq rfl rfl rfl
      · exact .trans (y := { s.line l with
          pins := { (s.line l).pins with rxd := .mark }, timers := { (s.line l).timers with stuck := none } })
          (.of_eq rfl rfl rfl) (.restartQuiet _ _)
    · exact .of_eq rfl rfl rfl

theorem State.Lawful.falseStartTaken (s : State) (l : LineId) : s.Lawful (s.falseStartTaken l) := by
  unfold State.falseStartTaken
  dsimp only
  split
  · have ht : s.Lawful (s.modLine l fun y => { y with inReception := false }.restartQuiet s.nowUs) :=
      .modLine (.trans (y := { s.line l with inReception := false }) (.of_eq rfl rfl rfl) (.restartQuiet _ _))
    split
    · next hp => exact ht.trans (.failExchange hp.1 nofun _)
    · exact ht
  · exact .refl s

/-! ## Timers (R28, R65, R66, R79, R80, R83, R84, R108) -/

/-- An attempt fails at the moment that device time has reached. -/
theorem State.Lawful.failAt {s : State} {l : LineId} {p : Phase} (hp : (s.line l).phase = some p) (hne : p ≠ .sending) (t : Nat)
    (c : Cause) : s.Lawful ((s.reachUs t).failAttempt l c) :=
  .trans (.reachUs s t) (.failExchange (s := s.reachUs t) hp hne c)

theorem State.Lawful.responseExpires (s : State) (l : LineId) : s.Lawful (s.responseExpires l) := by
  unfold State.responseExpires
  dsimp only
  split
  · next hp =>
    split
    · exact .refl s
    · split
      · split
        · exact .failExchange hp.2 nofun _
        · exact .refl s
      · split
        · exact .refl s
        · split
          · exact .trans (.reachUs s _) (.ofUnread rfl rfl rfl)
          · exact .failAt hp.2 nofun _ _
  · exact .refl s

theorem State.Lawful.gapExpires (s : State) (l : LineId) : s.Lawful (s.gapExpires l) := by
  unfold State.gapExpires
  split
  · exact .refl s
  · split
    · next hp => exact .failAt hp.2 nofun _ _
    · exact .refl s

theorem State.Lawful.settleExpires (s : State) (l : LineId) : s.Lawful (s.settleExpires l) := by
  unfold State.settleExpires
  split
  · exact .refl s
  · split
    · next hp => exact .trans (.reachUs s _) (.modLine (.enterIdle hp.2))
    · exact .refl s

theorem State.Lawful.settleLimitExpires (s : State) (l : LineId) : s.Lawful (s.settleLimitExpires l) := by
  unfold State.settleLimitExpires
  split
  · exact .refl s
  · split
    · exact .trans (.reachUs s _) (.faultLine _ l _)
    · exact .refl s

theorem State.Lawful.startQuietExpires (s : State) (l : LineId) : s.Lawful (s.startQuietExpires l) := by
  unfold State.startQuietExpires
  split
  · exact .refl s
  · split
    · next hr => exact .trans (.reachUs s _) (.modLine (.enterRunning hr.2.1))
    · exact .refl s

theorem State.Lawful.startLimitExpires (s : State) (l : LineId) : s.Lawful (s.startLimitExpires l) := by
  unfold State.startLimitExpires
  split
  · exact .refl s
  · split
    · exact .trans (.reachUs s _) (.faultLine _ l _)
    · exact .refl s

theorem State.Lawful.clockedWaitEnds (s : State) (l : LineId) : s.Lawful (s.clockedWaitEnds l) := by
  unfold State.clockedWaitEnds
  split
  · exact .refl s
  · split
    · next hr => exact .trans (.reachUs s _) (.modLine (.enterRunning hr.2.1))
    · exact .refl s

theorem State.Lawful.stuckExpires (s : State) (l : LineId) : s.Lawful (s.stuckExpires l) := by
  unfold State.stuckExpires
  split
  · exact .refl s
  · next u _ =>
    split
    · have hfault : s.Lawful ((s.reachUs u).faultLine l .stuck) := .trans (.reachUs s u) (.faultLine _ l _)
      have hrun : (((s.reachUs u).faultLine l .stuck).line l).run = .faulted := by
        rw [State.faultLine, State.line_modLine_same]; rfl
      generalize (s.reachUs u).faultLine l .stuck = v at *
      unfold State.stopIfDisabling
      split
      · exact hfault.trans (.modLine
          (.trans (.enterStopped fun h => h.attempt_none_of_run (by simp [hrun])) (.of_eq rfl rfl rfl)))
      · exact hfault
    · exact .refl s

theorem State.Lawful.holdOffExpires (s : State) (e : EntryId) : s.Lawful (s.holdOffExpires e) := by
  unfold State.holdOffExpires
  split
  · exact .refl s
  · split
    · exact .refl s
    · split
      · exact .trans (.reachUs s _) (State.TableWork.endHoldOff _ e).lawful
      · exact .refl s

theorem State.Lawful.dueReached (s : State) (e : EntryId) : s.Lawful (s.dueReached e) := by
  unfold State.dueReached
  split
  · exact .refl s
  · split
    · exact .reachUs s _
    · exact .refl s

end Sys2Proof.Machine

/-! # Every step keeps the laws of lines and of Scanners (R6, R39, R63, R69, R73, R77, R106)

The commands, the ends of reads and writes and the units' own acts, each keeping the laws line by line. Only the end of a completion write
asks more: that the Scanner told of it is delivering, which the capacity law says of a writer. -/

namespace Sys2Proof.Machine

/-! ## Faults, OFF and resets (R62, R171, R176, R178) -/

theorem State.Lawful.mapLines {s t : State} {f : Line → Line} (ht : t.lines = vmap f s.lines) (h : ∀ x : Line, x.Lawful (f x)) :
    s.Lawful t := fun l => by
  rw [show t.line l = f (s.line l) by rw [State.line, ht]; exact vget_vmap _ _ _]
  exact h _

theorem State.CutWork.lawful {s t : State} (h : s.CutWork t) : s.Lawful t := .of_lines (by rw [h.same])

theorem State.Lawful.deviceFault (s : State) (code : FaultCode) : s.Lawful (s.deviceFault code) := by
  have hbase : s.Lawful s.faultBase := (State.CutWork.cutWrites s).lawful.trans s.faultBase_work.lawful
  rw [State.deviceFault_eq]
  generalize s.faultBase = u at *
  exact hbase.trans (.mapLines rfl Line.deviceFaulted_lawful)

theorem State.Lawful.reachOff (s : State) (cause : ResetCause) : s.Lawful (s.reachOff cause) :=
  .mapLines rfl fun x => x.reset_lawful _

theorem State.Lawful.resetAll (s : State) (cause : ResetCause) : s.Lawful (s.resetAll cause) := by
  have hcut : s.Lawful s.cutWrites := (State.CutWork.cutWrites s).lawful
  rw [State.resetAll_eq]
  generalize s.cutWrites = u at *
  exact hcut.trans (.mapLines rfl fun x => x.reset_lawful _)

theorem State.Lawful.beginLoad (s : State) : s.Lawful s.beginLoad := by
  have hload : s.Lawful { s with device := .loading, faultCode := .none, loadAddr := some s.bootAddr } := .of_lines rfl
  unfold State.beginLoad
  extract_lets t
  split
  · exact hload
  · exact hload.trans (.deviceFault t _)

theorem State.Lawful.endDisable (s : State) : s.Lawful s.endDisable := by
  unfold State.endDisable
  extract_lets t
  have ht : s.Lawful t := .reachOff s _
  split
  · exact ht.trans (.beginLoad t)
  · exact ht

theorem State.Lawful.abortAdmin (s : State) : s.Lawful s.abortAdmin := by
  obtain ⟨a, e⟩ := s.abortAdmin_eq
  rw [e]
  exact .of_lines rfl

theorem State.Lawful.beginDisable (s : State) : s.Lawful s.beginDisable := by
  unfold State.beginDisable
  extract_lets t u
  have hu : t.Lawful u := .foldl State.Lawful.disableLine _ t
  have hdrop : u.Lawful u.dropNotices   := .mapLines rfl fun _ => .of_eq rfl rfl rfl
  have hstart : s.Lawful t := .of_lines rfl
  exact hstart.trans (hu.trans (hdrop.trans (.abortAdmin _)))

/-! ## The host's commands (R125 to R127, R142, R172, R177) -/

theorem State.Lawful.writeEnable (s : State) (v : Bool) : s.Lawful (s.writeEnable v) := by
  have hreg : ∀ b, s.Lawful { s with enable := b } := fun b => .of_lines rfl
  unfold State.writeEnable
  split
  · dsimp only
    split
    · exact (hreg v).trans (.beginLoad _)
    · exact hreg v
  · dsimp only
    split
    · exact (hreg v).trans (.reachOff _ _)
    · exact hreg v
  · dsimp only
    split
    · exact (hreg v).trans (.beginDisable _)
    · exact hreg v
  · exact hreg v
  · split
    · exact .refl s
    · exact (hreg false).trans (.reachOff _ _)

theorem State.Lawful.writePost (s : State) (ring : Byte) (tail : Half) : s.Lawful (s.writePost ring tail) := by
  have hreject : ∀ e, s.Lawful (s.rejectPost e) := fun e => .of_lines rfl
  unfold State.writePost
  split
  · exact hreject _
  · split
    · unfold State.postPool
      split
      · exact hreject _
      · split
        · extract_lets t
          split
          · exact .of_lines rfl
          · exact .of_lines rfl
        · exact hreject _
    · split
      · unfold State.postRing
        split
        · exact hreject _
        · split
          · exact .of_lines rfl
          · exact hreject _
      · exact hreject _

theorem State.Lawful.writeRelease (s : State) (ring : Byte) (head : Half) : s.Lawful (s.writeRelease ring head) := by
  have hreject : ∀ e, s.Lawful (s.rejectPost e) := fun e => .of_lines rfl
  unfold State.writeRelease
  split
  · exact hreject _
  · split
    · exact hreject _
    · split
      · exact hreject _
      · next r _ _ c hc =>
        extract_lets k t
        have ht : s.Lawful t := .of_lines rfl
        split
        · split
          · exact ht.trans (.gainPlace t r)
          · exact ht
        · exact hreject _

theorem State.Lawful.writeReg (s : State) (reg : Reg) (v : Word) : s.Lawful (s.writeReg reg v) := by
  cases reg with
  | devid => exact .refl s
  | devctl =>
    change s.Lawful (s.writeDevctl v)
    unfold State.writeDevctl
    split
    · exact .resetAll s _
    · exact .trans (t := s.writeIntEnable (v.getLsbD 1)) (.of_lines rfl) (.writeEnable _ _)
  | devstat => exact .refl s
  | bootLo => exact .of_lines rfl
  | bootHi => exact .of_lines rfl
  | post => exact .writePost s _ _
  | release => exact .writeRelease s _ _
  | intcause => exact .of_lines rfl

/-! ## Reads and writes of host memory (chapters 3, 5, 6, 8, 10) -/

theorem State.Lawful.bootReadEnds (s : State) (r : BusRead) : s.Lawful (s.bootReadEnds r) := by
  unfold State.bootReadEnds
  split
  · split
    · exact .deviceFault s _
    · split
      · exact .of_lines rfl
      · exact .deviceFault s _
  · exact .refl s

/-- A slot changed alone keeps the laws where it does not become ACTIVE. -/
theorem Line.Lawful.setSlot {x : Line} {i : SlotId} {v : Option Slot}
    (h : ∀ b ∈ v, b.state = .active → ∃ a ∈ x.slot i, a.state = .active) : x.Lawful (x.setSlot i v) := by
  refine ⟨fun hx => (Line.ok_iff _).mpr ⟨hx.control, fun j b hb hactive => ?_⟩, id⟩
  by_cases e : j = i
  · subst e
    rw [Line.slot_setSlot_same] at hb
    obtain ⟨a, ha, haa⟩ := h b hb hactive
    exact hx.asked j a ha haa
  · rw [Line.slot_setSlot_ne _ _ e] at hb
    exact hx.asked j b hb hactive

theorem State.Lawful.fenceHeld (s : State) (l : LineId) (i : SlotId) :
    s.Lawful (s.modSlot l i fun y => { y with fenceHeld := true }) := by
  refine .modLine (.setSlot fun b hb hactive => ?_)
  obtain ⟨a, ha, rfl⟩ := Option.map_eq_some_iff.mp hb
  exact ⟨a, ha, hactive⟩

theorem State.Lawful.placeRecord (s : State) (l : LineId) (i : SlotId) (ring : RingId) (r : SubRec) :
    s.Lawful (s.placeRecord l i ring r) := by
  unfold State.placeRecord
  extract_lets t
  have ht : s.Lawful t := by
    unfold t
    split
    · exact .trans (t := s.modRing ring fun x => { x with fenced := true }) (.of_lines rfl) (.fenceHeld _ l i)
    · exact .refl s
  split
  · exact ht.trans (State.TableWork.beginLoading t l i).lawful
  · split
    · refine ht.trans (State.TableWork.lawful ?_)
      exact .modSlot fun a _ => Slot.Moved.to (x := a) (st := .waiting) nofun
    · exact ht.trans (State.TableWork.enterReady t l i).lawful

theorem State.Lawful.recordReadEnds (s : State) (l : LineId) (r : BusRead) : s.Lawful (s.recordReadEnds l r) := by
  unfold State.recordReadEnds
  split
  · split
    · exact .refl s
    · next rd hrd =>
      split
      · exact .deviceFault s _
      · split
        · exact .refl s
        · next bs i hi =>
          unfold State.takeInto
          extract_lets age t u rec
          have hu : s.Lawful u := by
            refine .trans (t := t) (.of_lines rfl) (.modLine (.trans (.setSlot fun y hy hactive => ?_) (.of_eq rfl rfl rfl)))
            obtain rfl := Option.some.inj (Option.mem_def.mp hy)
            cases hactive
          split
          · exact hu.trans (State.TableWork.modSlot fun a _ => .finishPlain a _).lawful
          · exact hu.trans (.placeRecord u l i _ _)
  · exact .refl s

theorem State.Lawful.payloadReadEnds (s : State) (l : LineId) (i : SlotId) (r : BusRead) : s.Lawful (s.payloadReadEnds l i r) :=
  (State.TableWork.payloadReadEnds s l i r).lawful

theorem State.Lawful.dataWriteEnds (s : State) (l : LineId) (i : SlotId) (w : BusWrite) : s.Lawful (s.dataWriteEnds l i w) := by
  unfold State.dataWriteEnds
  split
  · split
    · exact .refl s
    · dsimp only
      split
      · exact .trans (t := s.hostWrite _ _) (.of_lines rfl) (State.TableWork.modSlot fun a _ => .finish a _ _ _ _).lawful
      · exact .trans (t := s.hostWriteMasked _ _ _) (.of_lines rfl) (State.TableWork.modSlot fun a _ => .finish a _ _ _ _).lawful
  · exact .refl s

theorem State.Lawful.poolReadEnds (s : State) (l : LineId) (r : BusRead) : s.Lawful (s.poolReadEnds l r) := by
  unfold State.poolReadEnds
  split
  · exact .refl s
  · next d hd =>
    split
    · exact .refl s
    · split
      · exact .deliveryAddressed (State.deliveryOf_some hd).2.1 d _
      · exact .deviceFault s _

theorem State.Lawful.scanWriteEnds (s : State) (l : LineId) (w : BusWrite) : s.Lawful (s.scanWriteEnds l w) := by
  unfold State.scanWriteEnds
  split
  · exact .refl s
  · next d hd =>
    obtain ⟨-, hs, -⟩ := State.deliveryOf_some hd
    split
    · split
      · exact .trans (t := s.hostWrite _ _) (.of_lines rfl) (.deliveryDecided (s := s.hostWrite _ _) hs d _)
      · exact .trans (t := s.hostWriteMasked _ _ _) (.of_lines rfl) (.deliveryDecided (s := s.hostWriteMasked _ _ _) hs d _)
    · exact .refl s

theorem State.Lawful.reportWriteEnds (s : State) (w : BusWrite) : s.Lawful (s.reportWriteEnds w) := by
  unfold State.reportWriteEnds
  split
  · split
    · dsimp only
      split <;> exact .of_lines rfl
    · exact .refl s
  · exact .refl s

/-! ## Completion writes (R60, R138, R144) -/

theorem State.Lawful.slotWritten (s : State) (l : LineId) (i : SlotId) : s.Lawful (s.slotWritten l i) := by
  have hfree : ∀ u : State, u.Lawful (u.modLine l fun x => { x.setSlot i none with txnWriter := none }) := fun u =>
    .modLine (.trans (y := (u.line l).setSlot i none) (.setSlot fun _ h => (nomatch h)) (.of_eq rfl rfl rfl))
  unfold State.slotWritten
  dsimp only
  split
  · next x _ =>
    exact .trans (t := s.modRing x.ring fun q => { q with inFlight := q.inFlight - 1, fenced := q.fenced && !x.fenceHeld })
      (.of_lines rfl) (hfree _)
  · exact hfree s

/-- A Scanner is told of its record's end while it delivers. -/
theorem State.Lawful.tellWriter {s : State} {w : Writer} (h : ∀ l, w = .scanner l → (s.line l).scanner.state = .delivering) :
    s.Lawful (s.tellWriter w) := by
  cases w with
  | slot l i => exact .slotWritten s l i
  | admin => exact .of_lines rfl
  | scanner l => exact .setScanner fun hs => hs.delivered (h l rfl)
  | notice l => exact .ofUnread rfl rfl rfl

/-- A writer told of its record's end keeps the laws of its line in any case. -/
theorem State.LinesOk.tellWriter {s : State} (h : s.LinesOk) (w : Writer) : (s.tellWriter w).LinesOk := by
  cases w with
  | slot l i => exact fun k => (State.Lawful.slotWritten s l i k).ok (h k)
  | admin => exact h
  | scanner l => exact fun k => State.modLine_lines (R := fun x y => x.Ok → y.Ok) (fun _ => id) ((Line.SlotsMoved.of_eq rfl).ok rfl) k (h k)
  | notice l => exact fun k => (State.Lawful.tellWriter (w := .notice l) nofun k).ok (h k)

theorem State.coalesce_lines (s : State) (r : CRingId) (urgent : Bool) : (s.coalesce r urgent).lines = s.lines := by
  rw [State.coalesce_frame]

/-- The end of a completion write: a bus error faults the part, and otherwise the ring takes the record and tells its writer (R138). -/
theorem State.completionEnds_cases (s : State) (r : CRingId) (w : BusWrite) : s.Lawful (s.completionEnds r w)
    ∨ ∃ c ∈ s.cring r, ∃ wr ∈ c.write, s.working = true
      ∧ ∃ t : State, t.lines = s.lines ∧ s.completionEnds r w = t.tellWriter wr.writer := by
  unfold State.completionEnds
  split
  · next hw =>
    split
    · exact .inl (.refl s)
    · next c hc =>
      split
      · exact .inl (.refl s)
      · next wr hwr =>
        dsimp only
        split
        · generalize hu : (s.hostWrite _ _).setCRing r _ = u
          have hlines : u.lines = s.lines := hu ▸ rfl
          exact .inr ⟨c, hc, wr, hwr, hw, u.coalesce r wr.record.urgent, (State.coalesce_lines u r _).trans hlines, rfl⟩
        · generalize hu : (s.hostWriteMasked _ _ _).setCRing r _ = u
          have hlines : u.lines = s.lines := hu ▸ rfl
          exact .inl (.trans (.of_lines hlines) (.deviceFault u _))
  · exact .inl (.refl s)

theorem State.LinesOk.completionEnds {s : State} (h : s.LinesOk) (r : CRingId) (w : BusWrite) : (s.completionEnds r w).LinesOk := by
  rcases s.completionEnds_cases r w with hl | ⟨c, -, wr, -, -, t, ht, e⟩
  · exact fun l => (hl l).ok (h l)
  · rw [e]
    exact State.LinesOk.tellWriter (fun l => (State.Lawful.of_lines ht l).ok (h l)) _

/-- The writer whose record is written holds its reservation, so that a Scanner told of it is delivering (R138, R140). -/
theorem State.Lawful.completionEnds {s : State} (hc : s.CapacityOk) (r : CRingId) (w : BusWrite) : s.Lawful (s.completionEnds r w) := by
  rcases s.completionEnds_cases r w with hl | ⟨c, hcr, wr, hwr, hw, t, ht, e⟩
  · exact hl
  · rw [e]
    refine .trans (.of_lines ht) (.tellWriter fun l hwriter => ?_)
    obtain ⟨-, hrings⟩ := hc hw
    obtain ⟨-, -, -, hwriters⟩ := hrings r c hcr
    have hok := hwriters wr.writer (by simp [CRing.writers, Option.mem_def.mp hwr])
    rw [hwriter] at hok
    obtain ⟨-, hstate, -⟩ := hok
    rw [State.line, ht]
    exact hstate

/-! ## Admin commands (chapter 9) -/

theorem State.Lawful.decide {s t : State} (h : s.Lawful t) (st : Status) (v : Nat) : s.Lawful (t.adminDecide st v) :=
  h.trans (.of_lines rfl)

theorem State.Lawful.wait {s t : State} (h : s.Lawful t) (w : AdminWait) (n : Nat) : s.Lawful (t.adminWait w n) :=
  h.trans (.of_lines rfl)

theorem State.Lawful.report {s t : State} (h : s.Lawful t) (report : List Byte) (buf : Addr) : s.Lawful (t.adminReport report buf) := by
  unfold State.adminReport
  extract_lets u
  split
  · exact h.trans (.of_lines rfl)
  · exact h.trans (.of_lines rfl)

theorem State.Lawful.fail (s : State) (st : Status) : s.Lawful (s.adminFail st) := .of_lines rfl

theorem Line.Lawful.of_moved {x y : Line} (h : x.SlotsMoved y) (hc : y.control = x.control) (hsc : y.scanner = x.scanner) : x.Lawful y :=
  ⟨h.ok hc, fun hs => hsc ▸ hs⟩

theorem State.Lawful.adminRingCreate (s : State) (ring sizeCode line cls cring : Byte) (base : Addr) :
    s.Lawful (s.adminRingCreate ring sizeCode line cls cring base) := by
  unfold State.adminRingCreate
  split
  · split
    · exact .fail s _
    · split
      · exact .fail s _
      · split
        · exact .fail s _
        · split
          · exact .fail s _
          · exact .of_lines rfl
  · exact .fail s _

theorem State.Lawful.adminRingPause (s : State) (ring : Byte) : s.Lawful (s.adminRingPause ring) := by
  unfold State.adminRingPause
  split
  · exact .fail s _
  · split
    · exact .fail s _
    · split
      · exact .fail s _
      · exact .of_lines rfl

theorem State.Lawful.adminRingResume (s : State) (ring cls : Byte) : s.Lawful (s.adminRingResume ring cls) := by
  unfold State.adminRingResume
  split
  · split
    · exact .fail s _
    · split
      · exact .fail s _
      · exact .of_lines rfl
  · exact .fail s _

theorem State.Lawful.adminRingDelete (s : State) (ring mode : Byte) : s.Lawful (s.adminRingDelete ring mode) := by
  unfold State.adminRingDelete
  split
  · exact .fail s _
  · next r _ =>
    split
    · exact .fail s _
    · split
      · exact .fail s _
      · extract_lets n t u
        have ht : s.Lawful t := .of_lines rfl
        have hu : t.Lawful u := by
          unfold u
          split
          · split
            · refine .modLine (.trans (y := Line.mapSlots _ _) (.of_moved (.mapSlots fun _ a _ => ?_) rfl rfl) (.of_eq rfl rfl rfl))
              exact .ite (.ringAborted a)
            · exact .refl t
          · exact .refl t
        exact (ht.trans hu).wait _ _

theorem State.Lawful.adminCringCreate (s : State) (ring sizeCode n : Byte) (ie : Bool) (t : Half) (base : Addr) :
    s.Lawful (s.adminCringCreate ring sizeCode n ie t base) := by
  unfold State.adminCringCreate
  split
  · exact .fail s _
  · split
    · exact .fail s _
    · split
      · exact .fail s _
      · exact .of_lines rfl

theorem State.policySteps_lines (s : State) (r : CRingId) (c : CRing) : (s.policySteps r c).lines = s.lines := by
  unfold State.policySteps
  split
  · rfl
  · split
    · rfl
    · split <;> split <;> rfl

theorem State.Lawful.adminCringPolicy (s : State) (ring n : Byte) (ie : Bool) (t : Half) :
    s.Lawful (s.adminCringPolicy ring n ie t) := by
  unfold State.adminCringPolicy
  split
  · exact .fail s _
  · next r _ =>
    split
    · exact .fail s _
    · split
      · exact .fail s _
      · dsimp only
        generalize hu : s.setCRing r _ = u
        have hlines : u.lines = s.lines := hu ▸ rfl
        exact .decide (.of_lines ((u.policySteps_lines r _).trans hlines)) _ _

theorem State.Lawful.adminCringDelete (s : State) (ring : Byte) : s.Lawful (s.adminCringDelete ring) := by
  unfold State.adminCringDelete
  split
  · exact .fail s _
  · split
    · exact .fail s _
    · split
      · exact .fail s _
      · exact .of_lines rfl

theorem State.Lawful.adminPoolCreate (s : State) (sizeCode : Byte) (base : Addr) : s.Lawful (s.adminPoolCreate sizeCode base) := by
  unfold State.adminPoolCreate
  split
  · exact .fail s _
  · split
    · exact .fail s _
    · exact .of_lines rfl

theorem State.Lawful.adminPoolDelete (s : State) : s.Lawful s.adminPoolDelete := by
  unfold State.adminPoolDelete
  split
  · exact .fail s _
  · split
    · exact .fail s _
    · exact .of_lines rfl

theorem Line.Lawful.configured {x : Line} (hr : x.run = .stopped) (c : LineConfig) : x.Lawful { x with config := some c } :=
  .of_control rfl rfl rfl fun h => h.configured hr _

theorem State.Lawful.adminLineConfig (s : State) (line : Byte) (f : LineFields) : s.Lawful (s.adminLineConfig line f) := by
  unfold State.adminLineConfig
  split
  · split
    · exact .fail s _
    · split
      · exact .fail s _
      · next hr =>
        split
        · exact .fail s _
        · exact .decide (.modLine (.configured (Classical.not_not.mp hr) _)) _ _
  · exact .fail s _

theorem State.Lawful.adminLineStart (s : State) (line : Byte) : s.Lawful (s.adminLineStart line) := by
  unfold State.adminLineStart
  split
  · exact .fail s _
  · split
    · exact .fail s _
    · split
      · next hr => exact .wait (.modLine (.enterStarting _ (.inl hr))) _ _
      · next hr => exact .wait (.modLine (.enterStarting _ (.inr hr))) _ _
      · exact .fail s _
      · exact .fail s _
      · exact .fail s _

theorem State.Lawful.gracefulStop {s : State} {l : LineId} (hr : (s.line l).run = .running) : s.Lawful (s.gracefulStop l) := by
  unfold State.gracefulStop
  extract_lets t u
  have ht : s.Lawful t := .modLine (.of_control rfl rfl rfl fun h => h.stopping hr)
  have hu : t.Lawful u := by
    unfold u
    split
    · exact .dropPoll t l
    · exact .refl t
  exact ht.trans (hu.trans (State.TableWork.abortRedeliveryDeferred u l).lawful)

theorem State.Lawful.adminLineStop (s : State) (line mode : Byte) : s.Lawful (s.adminLineStop line mode) := by
  unfold State.adminLineStop
  split
  · exact .fail s _
  · split
    · exact .fail s _
    · split
      · exact .of_lines rfl
      · next hr => exact .decide (.modLine (.enterStopped fun h => h.attempt_none_of_run (by simp [hr]))) _ _
      · next hr =>
        split
        · exact .wait (.gracefulStop hr) _ _
        · exact .wait (.abortLine s _) _ _
      · exact .fail s _
      · exact .fail s _

theorem State.Lawful.adminStationAttach (s : State) (line addr : Byte) (period : Half) :
    s.Lawful (s.adminStationAttach line addr period) := by
  unfold State.adminStationAttach
  split
  · exact .fail s _
  · split
    · exact .fail s _
    · split
      · exact .fail s _
      · split
        · exact .fail s _
        · split
          · exact .fail s _
          · exact .of_lines rfl

theorem State.Lawful.adminStationDetach (s : State) (line addr : Byte) : s.Lawful (s.adminStationDetach line addr) := by
  unfold State.adminStationDetach
  split
  · exact .fail s _
  · split
    · exact .fail s _
    · split
      · exact .fail s _
      · next e _ =>
        extract_lets t
        have ht : s.Lawful t := by
          refine .modLine (.trans (y := Line.mapSlots _ _) (.of_moved (.mapSlots fun _ a _ => ?_) rfl rfl) (.of_eq rfl rfl rfl))
          exact .ite (.cutOff a _)
        split
        · exact (ht.trans (State.TableWork.changeState t e .detaching).lawful).wait _ _
        · exact (ht.trans (State.TableWork.freeEntry t e).lawful).decide _ _

theorem State.Lawful.adminStationScan (s : State) (line addr : Byte) (period : Half) :
    s.Lawful (s.adminStationScan line addr period) := by
  unfold State.adminStationScan
  split
  · exact .fail s _
  · split
    · exact .fail s _
    · split
      · exact .fail s _
      · split
        · exact .fail s _
        · split
          · exact .fail s _
          · exact .of_lines rfl

theorem State.Lawful.adminStationQuery (s : State) (index : Byte) (clear : Bool) (buf : Addr) :
    s.Lawful (s.adminStationQuery index clear buf) := by
  unfold State.adminStationQuery
  split
  · exact .fail s _
  · split
    · exact .fail s _
    · dsimp only
      split
      · generalize hu : s.setStation _ _ = u
        have hlines : u.lines = s.lines := hu ▸ rfl
        exact .report (.of_lines hlines) _ _
      · exact .report (.refl s) _ _

theorem State.Lawful.adminLineQuery (s : State) (line part : Byte) (clear : Bool) (buf : Addr) :
    s.Lawful (s.adminLineQuery line part clear buf) := by
  unfold State.adminLineQuery
  split
  · exact .fail s _
  · split
    · exact .fail s _
    · dsimp only
      split
      · exact .report (.ofUnread rfl rfl rfl) _ _
      · exact .report (.refl s) _ _

theorem State.Lawful.runAdmin (s : State) (c : AdminCmd) : s.Lawful (s.runAdmin c) := by
  cases c with
  | ringCreate ring sizeCode line cls cring base => exact .adminRingCreate s ring sizeCode line cls cring base
  | ringPause ring => exact .adminRingPause s ring
  | ringResume ring cls => exact .adminRingResume s ring cls
  | ringDelete ring mode => exact .adminRingDelete s ring mode
  | cringCreate ring sizeCode n ie t base => exact .adminCringCreate s ring sizeCode n ie t base
  | cringPolicy ring n ie t => exact .adminCringPolicy s ring n ie t
  | cringDelete ring => exact .adminCringDelete s ring
  | poolCreate sizeCode base => exact .adminPoolCreate s sizeCode base
  | poolDelete => exact .adminPoolDelete s
  | lineConfig line f => exact .adminLineConfig s line f
  | lineStart line => exact .adminLineStart s line
  | lineStop line mode => exact .adminLineStop s line mode
  | stationAttach line addr period => exact .adminStationAttach s line addr period
  | stationDetach line addr => exact .adminStationDetach s line addr
  | stationScan line addr period => exact .adminStationScan s line addr period
  | stationQuery index clear buf => exact .adminStationQuery s index clear buf
  | lineQuery line part clear buf => exact .adminLineQuery s line part clear buf

theorem State.Lawful.takeAdmin (s : State) (record : List Byte) (cmd : Option AdminCmd) : s.Lawful (s.takeAdmin record cmd) := by
  unfold State.takeAdmin
  split
  · extract_lets t
    have ht : s.Lawful t := .of_lines rfl
    split
    · exact ht.decide _ _
    · split
      · exact ht.decide _ _
      · exact ht.trans (.runAdmin t _)
  · exact .refl s

theorem State.Lawful.adminReadEnds (s : State) (r : BusRead) : s.Lawful (s.adminReadEnds r) := by
  unfold State.adminReadEnds
  split
  · split
    · exact .deviceFault s _
    · exact .refl s
  · exact .takeAdmin s _ _

theorem State.Lawful.coalescingExpires (s : State) (r : CRingId) : s.Lawful (s.coalescingExpires r) := by
  unfold State.coalescingExpires
  split
  · exact .refl s
  · split
    · exact .refl s
    · split
      · exact .of_lines rfl
      · exact .refl s

/-! ## Every effect, and every act of the units -/

/-- Every effect but the end of a completion write keeps the laws, and that one where its writer holds a reservation. -/
theorem State.Lawful.effect {s : State} {i : Instr} (hi : ∀ r w, i = .completionWrite r w → s.CapacityOk) : s.Lawful (s.effect i) := by
  cases i with
  | powerOnReset => exact .resetAll s _
  | hardReset => exact .resetAll s _
  | enable v => exact .writeEnable s v
  | intEnable v => exact .of_lines rfl
  | post ring tail => exact .writePost s ring tail
  | release ring head => exact .writeRelease s ring head
  | intcause v => exact .of_lines rfl
  | registerWrite reg v => exact .writeReg s reg v
  | bootstrapRead r => exact .bootReadEnds s r
  | recordRead l r => exact .recordReadEnds s l r
  | payloadRead l i r => exact .payloadReadEnds s l i r
  | dataWrite l i w => exact .dataWriteEnds s l i w
  | poolEntryRead l r => exact .poolReadEnds s l r
  | scanDataWrite l w => exact .scanWriteEnds s l w
  | reportWrite w => exact .reportWriteEnds s w
  | completionWrite r w => exact .completionEnds (hi r w rfl) r w
  | leadTime l => exact .leadEnds s l
  | characterSent l => exact .characterEnds s l
  | characterReceived l c => exact .characterArrives s l c
  | rxdTransition l level => exact .rxdTakes s l level
  | responseTimeout l => exact .responseExpires s l
  | gapLimit l => exact .gapExpires s l
  | settleTime l => exact .settleExpires s l
  | settleLimit l => exact .settleLimitExpires s l
  | startQuiet l => exact .startQuietExpires s l
  | startLimit l => exact .startLimitExpires s l
  | stuckLimit l => exact .stuckExpires s l
  | clockedStartWait l => exact .clockedWaitEnds s l
  | holdOffEnd e => exact .holdOffExpires s e
  | nextDue e => exact .dueReached s e
  | coalescingTimer r => exact .coalescingExpires s r
  | falseStart l => exact .falseStartTaken s l
  | adminRecordRead r => exact .adminReadEnds s r
  | _ => exact .takeAdmin s _ _

theorem State.LinesOk.effect {s : State} (h : s.LinesOk) (i : Instr) : (s.effect i).LinesOk := by
  by_cases hi : ∃ r w, i = .completionWrite r w
  · obtain ⟨r, w, rfl⟩ := hi
    exact h.completionEnds r w
  · exact fun l => (State.Lawful.effect (fun r w e => absurd ⟨r, w, e⟩ hi) l).ok (h l)

/-- An idle line has no attempt and no ACTIVE slot (R39, R63). -/
theorem Line.Ok.asked_of_idle {x : Line} (h : x.Ok) (hp : x.phase = some .idle) : x.Asked none :=
  h.asked_none (h.control.requester_none (by simp [Control.exchanging, Line.control, hp]))

/-- With one slot made ACTIVE on a line that has none, an ACTIVE slot is that one. -/
theorem Line.Asked.modSlot {x : Line} (h : x.Asked none) (i : SlotId) (f : Slot → Slot) : (x.modSlot i f).Asked (some (.slot i)) := by
  intro j b hb hactive
  by_cases e : j = i
  · rw [e]
  · rw [Line.slot_modSlot_ne _ _ e] at hb
    exact absurd (h j b hb hactive) nofun

/-- A grant to a slot makes it the one ACTIVE slot of a line that was idle (R39, R52). -/
theorem State.Lawful.grantSlot {s : State} {l : LineId} (hp : (s.line l).phase = some .idle) (c : ClassId) (i : SlotId) :
    s.Lawful (s.grantSlot l c i) := by
  unfold State.grantSlot
  split
  · exact .refl s
  · next x _ =>
    dsimp only
    refine State.LawfulElsewhere.lawful (l := l) (.trans (.modLine s l _) (.modLine _ l _)) ?_
    rw [State.line_modLine_same, State.modSlot, State.line_modLine_same]
    refine ⟨fun h => Line.beginExchange_ok _ _ h.control hp ?_, fun h => ?_⟩
    · exact ((h.asked_of_idle hp).modSlot i _).of_slots rfl
    · rw [Line.scanner_beginExchange]
      exact h

theorem State.Lawful.grantPoll {s : State} {l : LineId} (hp : (s.line l).phase = some .idle)
    (hh : (s.line l).scanner.state = .holding) (e : EntryId) : s.Lawful (s.grantPoll l e) := by
  unfold State.grantPoll
  split
  · exact .refl s
  · refine .modLine ⟨fun h => Line.beginExchange_ok _ _ h.control hp fun j b hb hactive => ?_, fun h => ?_⟩
    · exact absurd (h.asked_of_idle hp j b hb hactive) nofun
    · rw [Line.scanner_beginExchange]
      exact h.polling hh _

theorem State.Lawful.grantLine {s : State} {l : LineId} (hg : s.mayGrant l = true) : s.Lawful (s.grantLine l) := by
  have hp : (s.line l).phase = some .idle := by
    simp only [State.mayGrant, Bool.and_eq_true, beq_iff_eq] at hg
    exact hg.1.1
  unfold State.grantLine
  split
  · exact .grantSlot hp _ _
  · next e h =>
    rcases State.arbiterChoice_some h with ⟨c, i, -, e⟩ | h'
    · cases e
    · exact .grantPoll hp (State.pollCandidate_some h').2.1 e
  · exact .refl s

theorem State.takeNotice_same {s t : State} {l : LineId} {rec : CompRecord} (h : s.takeNotice l = some (rec, t)) : s.Lawful t := by
  simp only [State.takeNotice] at h
  split at h
  · cases h
    exact .ofUnread (f := fun x => { x with linePending := false }) rfl rfl rfl
  · split at h
    · cases h
    · next rest _ =>
      split at h
      · cases h
      · cases h
        exact .trans (t := s.modLine l fun x => { x with noticeQueue := rest }) (.ofUnread rfl rfl rfl) (.of_lines rfl)

theorem State.Lawful.writeNotice (s : State) (l : LineId) : s.Lawful (s.writeNotice l) := by
  unfold State.writeNotice
  split
  · unfold State.startNotice
    split
    · exact .refl s
    · next rec t h =>
      have ht := State.takeNotice_same h
      refine ht.trans (.trans (t := t.reserve _) (.of_lines rfl) (.trans (.ofUnread ?_ ?_ ?_) (State.TableWork.requestWrite _ _ _).lawful))
      all_goals rfl
  · exact .refl s

theorem State.Lawful.endAdminWait (s : State) : s.Lawful s.endAdminWait := by
  have hstop : s.Lawful s.stopFaultedForAbort := by
    unfold State.stopFaultedForAbort
    split
    · split
      · split
        · next hr => exact .modLine (.enterStopped fun h => h.attempt_none_of_run (by simp [hr]))
        · exact .refl s
      · exact .refl s
    · exact .refl s
  unfold State.endAdminWait
  split
  · exact hstop.decide _ _
  · exact .refl s

theorem State.Lawful.beginWrite (s : State) (r : CRingId) : s.Lawful (s.beginWrite r) := by
  unfold State.beginWrite
  split
  · exact .refl s
  · split
    · exact .refl s
    · split <;> exact .of_lines rfl

theorem State.Lawful.beginIntake (s : State) (l : LineId) : s.Lawful (s.beginIntake l) := by
  unfold State.beginIntake
  split
  · exact .refl s
  · split
    · exact .refl s
    · exact .trans (t := s.reserve _) (.of_lines rfl) (.ofUnread rfl rfl rfl)

/-- Every enabled act keeps the laws of lines and of Scanners. -/
theorem State.Lawful.perform {s : State} {a : Act} (h : s.enabled a = true) : s.Lawful (s.perform a) := by
  cases a with
  | fence l i => exact (State.TableWork.enterReady s l i).lawful
  | drain r => exact .of_lines rfl
  | lineStopped l =>
    simp only [State.enabled, Line.stopReached, Bool.and_eq_true, beq_iff_eq] at h
    exact .modLine (.enterStopped fun hx => hx.attempt_none (by simp [Control.exchanging, Line.control, h.2.2]))
  | adminEnd => exact .endAdminWait s
  | reachOff => exact .endDisable s
  | txn l => exact (State.TableWork.requestTxn s l).lawful
  | adminWrite => exact .of_lines rfl
  | startWrite r => exact .beginWrite s r
  | intake l => exact .beginIntake s l
  | adminRead => exact .of_lines rfl
  | scanReturn l => exact .dropPoll s l
  | scanClaim l =>
    simp only [State.enabled, State.scanMayClaim, Bool.and_eq_true, beq_iff_eq] at h
    exact .scanClaimPlace h.1.1.1.2
  | grant l =>
    simp only [State.enabled, Bool.and_eq_true] at h
    exact .grantLine h.2
  | notice l => exact .writeNotice s l

/-! ## The step -/

theorem State.Lawful.react (s : State) : s.Lawful s.react :=
  State.react_relates State.Lawful.refl (fun _ _ _ => State.Lawful.trans) (fun _ _ => State.Lawful.perform) (fun _ _ => .of_lines rfl) s

theorem State.linesOk_step {s t : State} (h : step s = .next t) : s.LinesOk → t.LinesOk :=
  step_relates (R := fun u v => u.LinesOk → v.LinesOk) (fun _ => id) (fun _ _ _ hu hv => hv ∘ hu) (fun _ _ _ => id) (fun _ => id)
    (fun i _ hu => hu.effect i) (fun _ _ ha hu l => (State.Lawful.perform ha l).ok (hu l)) h

theorem State.Lawful.scannersOk {s t : State} (h : s.Lawful t) (hs : s.ScannersOk) : t.ScannersOk := fun l => (h l).scanner (hs l)

theorem State.scannersOk_step {s t : State} (h : step s = .next t) (hc : s.CapacityOk) (hs : s.ScannersOk) : t.ScannersOk := by
  unfold step at h
  split at h
  · next i rest _ =>
    have heffect : s.Lawful (State.effect { s with pending := rest } i) :=
      .trans (t := { s with pending := rest }) (.of_lines rfl) (.effect fun _ _ _ => hc)
    rcases exec_eq i { s with pending := rest } with e | e
    · obtain rfl : State.effect _ i = t := by rw [e] at h; injection h
      exact heffect.scannersOk hs
    · obtain rfl : (State.effect _ i).react = t := by rw [e] at h; injection h
      exact (heffect.trans (.react _)).scannersOk hs
  · obtain rfl : s.tick = t := by injection h
    exact hs

/-- Settles O56: each operation on a line keeps the laws of its control, an attempt ends with its slot no longer ACTIVE, and the third conflict
in a row faults the line; a Scanner told of its record's end is delivering, since a writer holds its reservation. -/
theorem stepKeepsLineAndScannerLaws : Obligations.StepKeepsLineAndScannerLaws :=
  ⟨fun _ _ hs h => State.linesOk_step h hs, fun _ _ hs hc h => State.scannersOk_step h hc hs⟩

end Sys2Proof.Machine
